-- ==== Sys2Proof/Word.lean ====
section
/-!
DEFINITION. The word types of the part: a window register is 16 bits (00_scope 2.1), a timebase value is 24 bits (R24).
-/
namespace Sys2Proof

/-- A register word of the host window, bit 15 the most significant (00_scope 2.1). -/
abbrev Word := BitVec 16

/-- Half a register word: an argument byte, a configuration index, the high bits of a 24-bit quantity. -/
abbrev Byte := BitVec 8

/-- A timebase value or a due value, counted modulo 2^24 (R24). -/
abbrev Tick := BitVec 24

end Sys2Proof
end

