-- ==== Sys2Proof/Syntax.lean ====
section
/-!
DEFINITION. The commands the block takes: one constructor of Instr for each row of spec/opcode_table.json, with its operands.
-/
namespace Sys2Proof

/-- The level of a line or of an input pin (R93, R110). -/
inductive Level where
  | low | high
deriving DecidableEq, Repr

/-- The three timebases by their numbers 0 CLOCK, 1 EDGE, 2 STEP (R24). -/
inductive Timebase where
  | clock | edge | step
deriving DecidableEq, Repr

/-- The thirteen host commands (R199). -/
inductive CommandCode where
  | writeSlot | readSlot | freeSlot | arm | armGroup | cancel | cancelGroup | loadTb | measStart | measStop
  | flushReports | releaseLines | engineReset
deriving DecidableEq, Repr

/-- One access to CFG_DATA (R197). -/
inductive CfgAccess where
  | read
  | write (data : Word)
deriving DecidableEq, Repr

/-- What another block or the host may have taken between two steps of one edge's dispatch (R112). -/
inductive Claim where
  /-- A CLK period, with the whole TB0 arrival it may complete; `stallFirst` says whether the arrival's stall check is
  taken before its batch (R129). -/
  | clkPeriod (stallFirst : Bool)
  /-- The next step, or the completion, of the host command in progress. -/
  | commandStep
  /-- A host write of the window register at an address. -/
  | hostWrite (address : BitVec 5) (data : Word)
  /-- A host read of the window register at an address. -/
  | hostRead (address : BitVec 5)
deriving DecidableEq, Repr

/-- The commands of the block. The host commands that are written to COMMAND carry their argument byte; the accesses carry
their data; the events carry what the part sees. -/
inductive Instr where
  /-- POWER_ON_RESET (R23): RST_N asserted, with the levels sampled on IN0 to IN3 and on SAFE_N (R122). -/
  | powerOnReset (ins : Vector Level 4) (safeN : Level)
  /-- WRITE_SLOT (R11): a write of command word 0x1 with this argument. -/
  | writeSlot (argument : Byte)
  /-- WRITE_SLOT_COMPLETION (R13). -/
  | writeSlotCompletion
  /-- READ_SLOT (R194): a write of command word 0x2; bit 7 of the argument chooses the view (R20). -/
  | readSlot (argument : Byte)
  /-- READ_SLOT_COMPLETION (R20). -/
  | readSlotCompletion
  /-- FREE_SLOT (R187): a write of command word 0x3. -/
  | freeSlot (argument : Byte)
  /-- FREE_SLOT_COMPLETION (R14). -/
  | freeSlotCompletion
  /-- ARM (R187): a write of command word 0x4. -/
  | arm (argument : Byte)
  /-- ARM_COMPLETION (R52). -/
  | armCompletion
  /-- ARM_GROUP (R53): a write of command word 0x5. -/
  | armGroup (argument : Byte)
  /-- ARM_GROUP_STEP (R53): one step of the ARM_GROUP in progress, and after slot 31 its completion (R54). -/
  | armGroupStep
  /-- CANCEL (R187): a write of command word 0x6. -/
  | cancel (argument : Byte)
  /-- CANCEL_COMPLETION (R19). -/
  | cancelCompletion
  /-- CANCEL_GROUP (R187): a write of command word 0x7. -/
  | cancelGroup (argument : Byte)
  /-- CANCEL_GROUP_COMPLETION (R60). -/
  | cancelGroupCompletion
  /-- LOAD_TB (R187): a write of command word 0x8. -/
  | loadTb (argument : Byte)
  /-- LOAD_TB_COMPLETION (R37). -/
  | loadTbCompletion
  /-- MEAS_START (R187): a write of command word 0x9. -/
  | measStart (argument : Byte)
  /-- MEAS_START_COMPLETION (R127). -/
  | measStartCompletion
  /-- MEAS_STOP (R187): a write of command word 0xA. -/
  | measStop (argument : Byte)
  /-- MEAS_STOP_COMPLETION (R128). -/
  | measStopCompletion
  /-- FLUSH_REPORTS (R187): a write of command word 0xB. -/
  | flushReports (argument : Byte)
  /-- FLUSH_REPORTS_COMPLETION (R162). -/
  | flushReportsCompletion
  /-- RELEASE_LINES (R187): a write of command word 0xC. -/
  | releaseLines (argument : Byte)
  /-- RELEASE_LINES_COMPLETION (R106). -/
  | releaseLinesCompletion
  /-- ENGINE_RESET (R187): a write of command word 0xD. -/
  | engineReset (argument : Byte)
  /-- ENGINE_RESET_COMPLETION (R192). -/
  | engineResetCompletion
  /-- BAD_COMMAND (R187): a write to COMMAND of a word with non-zero upper bits or an unknown code. -/
  | badCommand (data : Word)
  /-- TB_HI_READ (R39): a read of the TBn_HI register of this timebase. -/
  | tbHiRead (t : Timebase)
  /-- REPORT_DATA_READ (R157). -/
  | reportDataRead
  /-- CLAIM (R171): a read of NOTIFY_CLAIM. -/
  | claim
  /-- COMPLETE (R174): a write of NOTIFY_CLAIM; the data is not read. -/
  | complete (data : Word)
  /-- STAGE_WRITE (R193): a write of one staging word. -/
  | stageWrite (index : Fin 10) (data : Word)
  /-- LINE_FORCE_WRITE (R104). -/
  | lineForceWrite (data : Word)
  /-- FAULT_WRITE (R179). -/
  | faultWrite (data : Word)
  /-- TIMEBASE_ENABLES_WRITE (R29): a CFG_DATA write while CFG_INDEX holds 0x00. -/
  | timebaseEnablesWrite (data : Word)
  /-- PRESCALER_WRITE (R31): a CFG_DATA write while CFG_INDEX holds 0x01. -/
  | prescalerWrite (data : Word)
  /-- EDGE_SELECTIONS_WRITE (R32): a CFG_DATA write while CFG_INDEX holds 0x02. -/
  | edgeSelectionsWrite (data : Word)
  /-- LINE_CONFIGURATION_WRITE (R95): a CFG_DATA write while CFG_INDEX holds 0x08 + n. -/
  | lineConfigurationWrite (data : Word)
  /-- CHANNEL_CONFIGURATION_WRITE (R125): a CFG_DATA write while CFG_INDEX holds 0x10 + c, 0x14 + c or 0x18 + c. -/
  | channelConfigurationWrite (data : Word)
  /-- CHANNEL_STATUS_WRITE (R144): a CFG_DATA write while CFG_INDEX holds 0x1C + c. -/
  | channelStatusWrite (data : Word)
  /-- NOTIFICATION_LEVELS_WRITE (R166): a CFG_DATA write while CFG_INDEX holds 0x20 or 0x21. -/
  | notificationLevelsWrite (data : Word)
  /-- REPORT_THRESHOLD_WRITE (R156): a CFG_DATA write while CFG_INDEX holds 0x22. -/
  | reportThresholdWrite (data : Word)
  /-- BAD_INDEX (R197): a CFG_DATA access while CFG_INDEX names no item. -/
  | badIndex (access : CfgAccess)
  /-- WINDOW_WRITE (R184): a write of the register at a word address 0x00 to 0x1F. -/
  | windowWrite (address : BitVec 5) (data : Word)
  /-- INPUT_EDGE (R110, R111): a level seen on one of IN0 to IN3, with the claims taken before the second and before the
  third step of the edge's dispatch (R112). -/
  | inputEdge (line : Fin 4) (level : Level) (beforeRelease : List Claim) (beforeChannels : List Claim)
  /-- SAFE_ASSERTION (R115): SAFE_N seen low. -/
  | safeAssertion
  /-- SAFE_RELEASE (R117): SAFE_N seen high. -/
  | safeRelease
  /-- TB0_ARRIVAL (R30): the prescaler phase completes. -/
  | tb0Arrival
  /-- BATCH_FIRE (R67): the scheduler fires the batch of the arrival taken. -/
  | batchFire
  /-- PULSE_END (R99): the line unit ends the pulses due at the arrival taken. -/
  | pulseEnd
  /-- STALL (R134): the measurement unit checks its channels at the arrival taken. -/
  | stall
  /-- CLK_PERIOD (R30): one CLK period. -/
  | clkPeriod
  /-- COMMAND_WRITE_IN_BUSY (R187): a write to COMMAND of any word, made while the engine is BUSY. -/
  | commandWriteInBusy (data : Word)
  /-- ARGUMENT_OUT_OF_RANGE (R187): a write to COMMAND of a known code with an argument outside its range. -/
  | argumentOutOfRange (data : Word)
deriving DecidableEq, Repr

end Sys2Proof
end

