-- ==== Sys2Proof/Decode.lean ====
section
/-!
DEFINITION. The command word of COMMAND (R199) and its argument ranges (10.3), and the host's decodeTableWord: the table
gives no row any bits, so no word spells a command by the table.
-/
namespace Sys2Proof

/-- Bits 11-8 of the command word (R199). -/
def CommandCode.bits : CommandCode → BitVec 4
  | .writeSlot => 0x1#4
  | .readSlot => 0x2#4
  | .freeSlot => 0x3#4
  | .arm => 0x4#4
  | .armGroup => 0x5#4
  | .cancel => 0x6#4
  | .cancelGroup => 0x7#4
  | .loadTb => 0x8#4
  | .measStart => 0x9#4
  | .measStop => 0xA#4
  | .flushReports => 0xB#4
  | .releaseLines => 0xC#4
  | .engineReset => 0xD#4

/-- The command a code names; 0x0, 0xE and 0xF name none (R199). -/
def CommandCode.ofBits (b : BitVec 4) : Option CommandCode :=
  if b = 0x1#4 then some .writeSlot
  else if b = 0x2#4 then some .readSlot
  else if b = 0x3#4 then some .freeSlot
  else if b = 0x4#4 then some .arm
  else if b = 0x5#4 then some .armGroup
  else if b = 0x6#4 then some .cancel
  else if b = 0x7#4 then some .cancelGroup
  else if b = 0x8#4 then some .loadTb
  else if b = 0x9#4 then some .measStart
  else if b = 0xA#4 then some .measStop
  else if b = 0xB#4 then some .flushReports
  else if b = 0xC#4 then some .releaseLines
  else if b = 0xD#4 then some .engineReset
  else none

/-- Whether a command admits an argument, checked at acceptance (10.3, R187). FLUSH_REPORTS, RELEASE_LINES and
ENGINE_RESET do not read theirs. -/
def CommandCode.admits (c : CommandCode) (argument : Byte) : Bool :=
  match c with
  | .writeSlot => argument.toNat ≤ 31
  | .readSlot => (argument.extractLsb' 0 7).toNat ≤ 31
  | .freeSlot => argument.toNat ≤ 31
  | .arm => argument.toNat ≤ 31
  | .armGroup => 1 ≤ argument.toNat && argument.toNat ≤ 7
  | .cancel => argument.toNat ≤ 31
  | .cancelGroup => 1 ≤ argument.toNat && argument.toNat ≤ 7
  | .loadTb => argument.toNat ≤ 2
  | .measStart => argument.toNat ≤ 3
  | .measStop => argument.toNat ≤ 3
  | .flushReports => true
  | .releaseLines => true
  | .engineReset => true

/-- The command word of a code and an argument: upper bits 0 (R199). -/
def commandWord (c : CommandCode) (argument : Byte) : Word :=
  0#4 ++ c.bits ++ argument

/-- Bits 15-12 of a command word, which must be 0 (R199). -/
def commandUpper (w : Word) : BitVec 4 := w.extractLsb' 12 4

/-- Bits 11-8 of a command word (R199). -/
def commandBits (w : Word) : BitVec 4 := w.extractLsb' 8 4

/-- Bits 7-0 of a command word (R199). -/
def commandArgument (w : Word) : Byte := w.extractLsb' 0 8

/-- The command a word names: none when its upper bits are not 0 or its code is unknown (R187). -/
def decodeCommand (w : Word) : Option CommandCode :=
  if commandUpper w = 0#4 then CommandCode.ofBits (commandBits w) else none

/-- The command that a word spells by the bits of spec/opcode_table.json: no row has any, so none. -/
def decodeTableWord (_nbits _w : Nat) : Option Instr := none

end Sys2Proof
end

