-- ==== Sys2Proof/Config.lean ====
section
/-!
DEFINITION. The constants the manual fixes for the part. It leaves no value undefined, so there is no free value here.
-/
namespace Sys2Proof.Config

/-- The constant that the ID register reads (R185). -/
def idWord : Word := 0x3208#16

/-- The report queue holds at most this many unread words (R148). -/
def queueCapacity : Nat := 128

/-- The pending lost count saturates here (R152). -/
def lostLimit : Nat := 65535

/-- The largest value a report word carries; greater ones are limited to it (R140). -/
def reportLimit : Nat := 65535

/-- An entry at this distance or less is ahead (R28). -/
def aheadLimit : Nat := 8388608

/-- The longest period, and the longest hold offset (R3, R12). -/
def periodLimit : Nat := 8388608

/-- A chain of nested fires holds at most this many entries, one for each slot (R51). -/
def chainLimit : Nat := 32

/-- The bounds of the report threshold (R156). -/
def thresholdMin : Nat := 1
def thresholdMax : Nat := 16

end Sys2Proof.Config
end

