-- ==== Sys2Proof/Machine/State.lean ====
section
/-!
DEFINITION. The state of the part as plain data, block by block, and the state after power-on reset.
-/
namespace Sys2Proof.Machine

/-- A slot of the action table, 0 to 31 (R1). -/
abbrev SlotId := Fin 32

/-- One thing for each timebase (R24). -/
structure PerTb (α : Type) where
  clock : α
  edge : α
  step : α
deriving DecidableEq, Repr

/-! ### Timebase unit -/

/-- The kind of edge that happens on an input line (R110). -/
inductive Edge where
  | rise | fall
deriving DecidableEq, Repr

/-- The kind of edge a selection asks for (R32). -/
inductive EdgeKind where
  | rise | fall | both
deriving DecidableEq, Repr

/-- The count selection or the clear selection of the EDGE timebase (R32). -/
structure EdgeSelection where
  line : Fin 4
  kind : EdgeKind
  on : Bool
deriving DecidableEq, Repr

/-- The timebase unit: values and enables (R24, R29), snapshots (R39), the prescaler code and phase (R30), and the two
EDGE selections (R32). -/
structure TimebaseUnit where
  values : PerTb Tick
  enables : PerTb Bool
  snapshots : PerTb Word
  prescaler : Byte
  phase : Nat
  countSelection : EdgeSelection
  clearSelection : EdgeSelection
deriving DecidableEq, Repr

/-! ### Action table and scheduler -/

/-- The eleven kinds of action (R3). -/
inductive Kind where
  | set | clear | toggle | pulse | loadTb | step | armGroup | cancelGroup | mark | measOpen | measClose
deriving DecidableEq, Repr

/-- The edge kind of a hold; `absent` is edge kind none, no hold (R5). -/
inductive HoldEdge where
  | absent | rise | fall | both
deriving DecidableEq, Repr

/-- What an entry does when it is judged behind as it arms (R7). -/
inductive LatePolicy where
  | refuse | fireNow
deriving DecidableEq, Repr

/-- What an entry does when a load leaves it behind (R7). -/
inductive SkipPolicy where
  | keep | drop
deriving DecidableEq, Repr

/-- The fields of a written record other than kind and timebase (R3). -/
structure Fields where
  due : Tick
  target : BitVec 3
  operand : Tick
  period : Tick
  repeatCount : Word
  group : BitVec 3
  holdEdge : HoldEdge
  holdLine : Fin 4
  latePolicy : LatePolicy
  skipPolicy : SkipPolicy
  keep : Bool
  report : Bool
  notify : Bool
deriving DecidableEq, Repr

/-- A written record (R3). Kind `none` is the code 0 of a cleared record (R195). -/
structure Record extends Fields where
  kind : Option Kind
  timebase : Timebase
deriving DecidableEq, Repr

/-- The record captured at the acceptance of WRITE_SLOT (R11), not validated yet: `none` where the code names no kind or
no timebase (R12). -/
structure Draft extends Fields where
  kind : Option Kind
  timebase : Option Timebase
deriving DecidableEq, Repr

/-- The five slot states (R2). -/
inductive SlotState where
  | free | staged | armed | held | spent
deriving DecidableEq, Repr

/-- A slot: its state, its written record and its run fields (R1, R9, R10). -/
structure Slot where
  state : SlotState
  record : Record
  nextDue : Tick
  remaining : Word
deriving DecidableEq, Repr

/-- A deferred operation of a batch: a STEP request, or a load of the batch's own timebase (R86). -/
inductive Deferred where
  | step
  | load (value : Tick)
deriving DecidableEq, Repr

/-- The record of a batch in progress (R68). -/
structure BatchRecord where
  timebase : Timebase
  value : Tick
  waiting : List SlotId
  chain : List SlotId
  deferred : List Deferred
deriving DecidableEq, Repr

/-- The action table and the scheduler: the slots (R1), the due lists in list order (R43), and the batch records held,
innermost first (R68). The held set is the slots in state HELD (R2, R57). -/
structure Scheduler where
  slots : Vector Slot 32
  lists : PerTb (List SlotId)
  batches : List BatchRecord
deriving DecidableEq, Repr

/-- The notices of a TB0 arrival that its recipients have still to take, each with the arrival's value (R25). -/
structure ArrivalNotices where
  lines : Option Tick
  stalls : Option Tick
deriving DecidableEq, Repr

/-! ### Line unit -/

/-- The active level of a pulse (R93). -/
inductive Polarity where
  | activeHigh | activeLow
deriving DecidableEq, Repr

/-- What a PULSE does when it meets a pulse in flight (R93). -/
inductive PulsePolicy where
  | retrigger | refuse
deriving DecidableEq, Repr

/-- The host's override of a line (R104). -/
inductive Force where
  | released | low | high
deriving DecidableEq, Repr

/-- A pulse in flight (R93). -/
structure Pulse where
  timebase : Timebase
  endValue : Tick
deriving DecidableEq, Repr

/-- A line record (R93). -/
structure Line where
  polarity : Polarity
  safeLevel : Level
  pulsePolicy : PulsePolicy
  scheduled : Level
  pulse : Option Pulse
  force : Force
  safeHold : Bool
deriving DecidableEq, Repr

/-! ### Input unit -/

/-- The SAFE state (R114). -/
inductive SafeState where
  | run | active | cleared
deriving DecidableEq, Repr

/-- The input unit: the last levels of IN0 to IN3 (R110), the last level seen on SAFE_N (low is asserted), and the SAFE
state (R114). -/
structure InputUnit where
  last : Vector Level 4
  safeN : Level
  safe : SafeState
deriving DecidableEq, Repr

/-! ### Measurement unit -/

/-- What interval a channel times (R125). -/
inductive MeasMode where
  | periodRise | periodFall | high | low
deriving DecidableEq, Repr

/-- How a division is rounded (R125, R138). -/
inductive Rounding where
  | trunc | halfUp | halfEven
deriving DecidableEq, Repr

/-- The measurement set-up of a channel (R125). -/
structure Setup where
  input : Fin 4
  mode : MeasMode
  windowExponent : Fin 9
  unitShift : Fin 9
  rounding : Rounding
  extremes : Bool
deriving DecidableEq, Repr

/-- The three configuration items of a channel (R125). -/
structure ChannelItems where
  setup : Setup
  timeoutHi : Byte
  timeoutLo : Word
deriving DecidableEq, Repr

/-- The configuration a channel has latched at its last open (R126). -/
structure Latched where
  setup : Setup
  timeout : Tick
deriving DecidableEq, Repr

/-- A channel's place in its measurement (R124). -/
inductive ChannelState where
  | off | waitStart | timing
deriving DecidableEq, Repr

/-- A channel record (R124). -/
structure Channel where
  state : ChannelState
  latched : Latched
  start : Tick
  count : Nat
  sum : Nat
  min : Nat
  max : Nat
  limit : Bool
deriving DecidableEq, Repr

/-- The measurement unit: the stored configuration items and the channel records (R124, R125). -/
structure MeasUnit where
  items : Vector ChannelItems 4
  channels : Vector Channel 4
deriving DecidableEq, Repr

/-! ### Report queue -/

/-- The flags of a FIRED record (R79). -/
structure FiredFlags where
  last : Bool
  late : Bool
  cut : Bool
  absorbed : Bool
deriving DecidableEq, Repr

/-- A record as its producer hands it (R149, R150). -/
inductive Report where
  | fired (slot : SlotId) (timebase : Timebase) (due : Tick) (flags : FiredFlags)
  | refused (slot : SlotId) (timebase : Timebase) (byAction byGroup : Bool)
  | skipped (slot : SlotId) (timebase : Timebase)
  /-- The mean, and the min and the max when extremes is on (R141). -/
  | meas (channel : Fin 4) (mean : Word) (extremes : Option (Word × Word)) (limited : Bool)
  | stall (channel : Fin 4)
  | closed (channel : Fin 4) (count : Word)
deriving DecidableEq, Repr

/-- A record in the queue: its gap count, 0 when it carries no gap word (R151), and how many of its words have been
read (R148). -/
structure Queued where
  report : Report
  gap : Nat
  read : Nat
deriving DecidableEq, Repr

/-- The report queue: its records, oldest first, the pending lost count and the threshold (R147). -/
structure ReportQueue where
  records : List Queued
  lost : Nat
  threshold : Nat
deriving DecidableEq, Repr

/-! ### Notification controller -/

/-- The thirteen sources (R165). -/
inductive Source where
  | fault | safe | report | lost
  | mc (channel : Fin 4)
  | wrap (t : Timebase)
  | entry | cmdDone
deriving DecidableEq, Repr

/-- The level setting of a programmable source (R166). -/
inductive NotifySetting where
  | disabled | level (n : Fin 3)
deriving DecidableEq, Repr

/-- A current level or a level on the claim stack: OPEN, or 0 to 3 (R169). -/
inductive Handling where
  | openLevel | level (n : Fin 4)
deriving DecidableEq, Repr

/-- The FAULT register (R177). -/
structure FaultBits where
  cmdOverrun : Bool
  stageConflict : Bool
  badIndex : Bool
  completeUnderflow : Bool
deriving DecidableEq, Repr

/-- The notification controller: the pending flags of sources 1 to 13 at positions 0 to 12 (R167), the level settings of
sources 3 to 13 at positions 0 to 10 (R166), the current level and the claim stack, top first (R169), and the FAULT
register (R177). -/
structure NotifyUnit where
  flags : Vector Bool 13
  settings : Vector NotifySetting 11
  current : Handling
  stack : List Handling
  faults : FaultBits
deriving DecidableEq, Repr

/-! ### Command engine and window registers -/

/-- The status field of COMMAND_RESULT (R189); `noResult` is NONE. -/
inductive CommandStatus where
  | noResult | ok | late | badState | badField | badCommand
deriving DecidableEq, Repr

/-- COMMAND_RESULT (R189). -/
structure CommandResult where
  status : CommandStatus
  code : BitVec 4
  detail : Byte
deriving DecidableEq, Repr

/-- The command in progress with what the command record holds for it: the captured record of WRITE_SLOT, the next slot
and the count of ARM_GROUP (R186). -/
inductive Job where
  | writeSlot (captured : Draft)
  | readSlot | freeSlot | arm
  | armGroup (nextSlot count : Nat)
  | cancel | cancelGroup | loadTb | measStart | measStop | flushReports | releaseLines | engineReset
deriving DecidableEq, Repr

/-- The command record of a BUSY engine (R186). -/
structure CommandRecord where
  job : Job
  argument : Byte
deriving DecidableEq, Repr

/-- The command engine and the registers it keeps: the command record, absent in IDLE (R186), COMMAND (R191),
COMMAND_RESULT (R189), the staging bank (R193), the operands (R196) and CFG_INDEX (R197). -/
structure Window where
  engine : Option CommandRecord
  command : Word
  result : CommandResult
  staging : Vector Word 10
  operandHi : Byte
  operandLo : Word
  cfgIndex : Byte
deriving DecidableEq, Repr

/-! ### The part -/

/-- The whole state. `pending` is the queue of commands waiting (the model's own); `readWord` is the word the last
modelled read drove on D15 to D0 (R182). -/
structure State where
  pending : List Instr
  readWord : Word
  tb : TimebaseUnit
  sched : Scheduler
  notices : ArrivalNotices
  lines : Vector Line 8
  inputs : InputUnit
  meas : MeasUnit
  queue : ReportQueue
  notify : NotifyUnit
  window : Window
deriving DecidableEq, Repr

/-- No command of the part ends in a fault: the four faults of R177 are bits of the FAULT register, and the part goes on.
So there is no constructor, and nobody raises one. -/
inductive Fault
deriving DecidableEq, Repr

/-- Why a command has no meaning. -/
inductive Refusal where
  /-- Raised by exec's arm of a command that the model gives no meaning yet; safe, since nothing is claimed of it. No arm
  raises it now. -/
  | notModelled (mnemonic : String)
deriving DecidableEq, Repr

/-! ### Reset values -/

/-- A cleared written record: all fields zero (R2, R23). -/
def Record.zero : Record where
  due := 0#24
  target := 0#3
  operand := 0#24
  period := 0#24
  repeatCount := 0#16
  group := 0#3
  holdEdge := .absent
  holdLine := 0
  latePolicy := .refuse
  skipPolicy := .keep
  keep := false
  report := false
  notify := false
  kind := none
  timebase := .clock

/-- A FREE slot: record and run fields zero (R2). -/
def Slot.empty : Slot where
  state := .free
  record := Record.zero
  nextDue := 0#24
  remaining := 0#16

/-- Input 0, rise, off (R41). -/
def EdgeSelection.initial : EdgeSelection where
  line := 0
  kind := .rise
  on := false

/-- The timebase unit after power-on (R41). -/
def TimebaseUnit.initial : TimebaseUnit where
  values := ⟨0#24, 0#24, 0#24⟩
  enables := ⟨false, false, false⟩
  snapshots := ⟨0#16, 0#16, 0#16⟩
  prescaler := 1#8
  phase := 0
  countSelection := EdgeSelection.initial
  clearSelection := EdgeSelection.initial

/-- Every slot FREE, the lists empty, no batch record (R23, R44, R92). -/
def Scheduler.initial : Scheduler where
  slots := Vector.replicate 32 Slot.empty
  lists := ⟨[], [], []⟩
  batches := []

/-- A line after power-on; its hold is set when SAFE_N is asserted at the reset (R108). -/
def Line.initial (held : Bool) : Line where
  polarity := .activeHigh
  safeLevel := .low
  pulsePolicy := .retrigger
  scheduled := .low
  pulse := none
  force := .released
  safeHold := held

/-- The set-up item after power-on (R145). -/
def Setup.initial : Setup where
  input := 0
  mode := .periodRise
  windowExponent := 0
  unitShift := 0
  rounding := .trunc
  extremes := false

/-- A channel after power-on (R145). -/
def Channel.initial : Channel where
  state := .off
  latched := ⟨Setup.initial, 0#24⟩
  start := 0#24
  count := 0
  sum := 0
  min := 0
  max := 0
  limit := false

/-- The notification controller after power-on (R180). -/
def NotifyUnit.initial : NotifyUnit where
  flags := Vector.replicate 13 false
  settings := Vector.replicate 11 .disabled
  current := .openLevel
  stack := []
  faults := ⟨false, false, false, false⟩

/-- The command engine and the window registers after power-on (R183, R186). -/
def Window.initial : Window where
  engine := none
  command := 0#16
  result := ⟨.noResult, 0#4, 0#8⟩
  staging := Vector.replicate 10 0#16
  operandHi := 0#8
  operandLo := 0#16
  cfgIndex := 0#8

/-- The part after power-on reset, with the levels sampled on IN0 to IN3 and on SAFE_N (R122): with SAFE_N asserted the
SAFE state is ACTIVE and every hold is set. -/
def State.powerOn (ins : Vector Level 4) (safeN : Level) : State where
  pending := []
  readWord := 0#16
  tb := TimebaseUnit.initial
  sched := Scheduler.initial
  notices := ⟨none, none⟩
  lines := Vector.replicate 8 (Line.initial (safeN == .low))
  inputs := ⟨ins, safeN, if safeN = .low then .active else .run⟩
  meas := ⟨Vector.replicate 4 ⟨Setup.initial, 0#8, 0#16⟩, Vector.replicate 4 Channel.initial⟩
  queue := ⟨[], 0, 1⟩
  notify := NotifyUnit.initial
  window := Window.initial

/-- The machine right after reset. DESIGN CHOICE, unsafe: IN0 to IN3 are sampled low and SAFE_N released (log 8), and the
word on D15 to D0 is 0 (log 9); the manual gives the rest (R23, R41, R108, R122, R145, R164, R180, R183). -/
def State.reset : State :=
  State.powerOn (Vector.replicate 4 .low) .high

end Sys2Proof.Machine
end

