-- ==== Sys2Proof/Machine/Operands.lean ====
section
/-!
DEFINITION. Every host-visible bit layout of the part (R195 to R201): the staging words, the configuration items, the
view registers and the report records, each as a function from fields to a word and, where the host writes it, back.
-/
namespace Sys2Proof.Machine

/-! ### Codes of the fields of R195 -/

/-- The kind code; a cleared record has code 0 (R195). -/
def kindCode : Option Kind → BitVec 4
  | none => 0#4
  | some .set => 1#4
  | some .clear => 2#4
  | some .toggle => 3#4
  | some .pulse => 4#4
  | some .loadTb => 5#4
  | some .step => 6#4
  | some .armGroup => 7#4
  | some .cancelGroup => 8#4
  | some .mark => 9#4
  | some .measOpen => 10#4
  | some .measClose => 11#4

/-- The kind a code names; 0 and 12 to 15 name none (R195). -/
def kindOfCode (b : BitVec 4) : Option Kind :=
  if b = 1#4 then some .set
  else if b = 2#4 then some .clear
  else if b = 3#4 then some .toggle
  else if b = 4#4 then some .pulse
  else if b = 5#4 then some .loadTb
  else if b = 6#4 then some .step
  else if b = 7#4 then some .armGroup
  else if b = 8#4 then some .cancelGroup
  else if b = 9#4 then some .mark
  else if b = 10#4 then some .measOpen
  else if b = 11#4 then some .measClose
  else none

/-- The timebase's number (R24) as its code. -/
def timebaseCode : Timebase → BitVec 2
  | .clock => 0#2
  | .edge => 1#2
  | .step => 2#2

/-- The timebase a number names: 0 CLOCK, 1 EDGE, 2 STEP, and no other (R24, R195). -/
def timebaseOfNat : Nat → Option Timebase
  | 0 => some .clock
  | 1 => some .edge
  | 2 => some .step
  | _ => none

/-- The code of a hold edge (R195). -/
def holdEdgeCode : HoldEdge → BitVec 2
  | .absent => 0#2
  | .rise => 1#2
  | .fall => 2#2
  | .both => 3#2

/-- The hold edge a code names (R195). -/
def holdEdgeOfCode (b : BitVec 2) : HoldEdge :=
  if b = 0#2 then .absent
  else if b = 1#2 then .rise
  else if b = 2#2 then .fall
  else .both

/-- 0 REFUSE, 1 FIRE_NOW (R195). -/
def latePolicyBit : LatePolicy → Bool
  | .refuse => false
  | .fireNow => true

/-- 0 KEEP, 1 DROP (R195). -/
def skipPolicyBit : SkipPolicy → Bool
  | .keep => false
  | .drop => true

/-- The code of a slot state (R195). -/
def slotStateCode : SlotState → BitVec 3
  | .free => 0#3
  | .staged => 1#3
  | .armed => 2#3
  | .held => 3#3
  | .spent => 4#3

/-- A level as a bit: 0 low, 1 high (R200). -/
def levelBit : Level → Bool
  | .low => false
  | .high => true

/-- One bit of a word as a field. -/
def bit (b : Bool) : BitVec 1 := BitVec.ofBool b

/-! ### The staging words (R195) -/

/-- What a READ_SLOT writes into the ten staging words: in the run view the repeat word carries remaining fires and the
run words next due, in the record view the repeat and 0 (R20, R195). -/
def slotWords (run : Bool) (sl : Slot) : Vector Word 10 :=
  let r := sl.record
  let nextDue := if run then sl.nextDue else 0#24
  #v[kindCode r.kind ++ timebaseCode r.timebase ++ r.target ++ r.group ++ bit (latePolicyBit r.latePolicy)
      ++ bit (skipPolicyBit r.skipPolicy) ++ bit r.keep ++ bit r.report,
     slotStateCode sl.state ++ bit r.notify ++ holdEdgeCode r.holdEdge ++ BitVec.ofFin (w := 2) r.holdLine
      ++ r.due.extractLsb' 16 8,
     r.due.extractLsb' 0 16,
     0#8 ++ r.operand.extractLsb' 16 8,
     r.operand.extractLsb' 0 16,
     0#8 ++ r.period.extractLsb' 16 8,
     r.period.extractLsb' 0 16,
     if run then sl.remaining else r.repeatCount,
     0#8 ++ nextDue.extractLsb' 16 8,
     nextDue.extractLsb' 0 16]

/-- The record that WRITE_SLOT captures from STAGE0 to STAGE7; the unused bits, the slot state, STAGE8 and STAGE9 are
not read (R193, R195). -/
def captureRecord (st : Vector Word 10) : Draft where
  kind := kindOfCode (st[0].extractLsb' 12 4)
  timebase := timebaseOfNat (st[0].extractLsb' 10 2).toNat
  target := st[0].extractLsb' 7 3
  group := st[0].extractLsb' 4 3
  latePolicy := if st[0].getLsbD 3 then .fireNow else .refuse
  skipPolicy := if st[0].getLsbD 2 then .drop else .keep
  keep := st[0].getLsbD 1
  report := st[0].getLsbD 0
  notify := st[1].getLsbD 12
  holdEdge := holdEdgeOfCode (st[1].extractLsb' 10 2)
  holdLine := (st[1].extractLsb' 8 2).toFin
  due := st[1].extractLsb' 0 8 ++ st[2]
  operand := st[3].extractLsb' 0 8 ++ st[4]
  period := st[5].extractLsb' 0 8 ++ st[6]
  repeatCount := st[7]

/-! ### The configuration items (R197, R198) -/

/-- The items of the configuration table (R197). -/
inductive CfgItem where
  | enables | prescaler | selections
  | line (n : Fin 8)
  | setup (c : Fin 4)
  | timeoutHi (c : Fin 4)
  | timeoutLo (c : Fin 4)
  | status (c : Fin 4)
  | levelsLow | levelsHigh | threshold
deriving DecidableEq, Repr

/-- The item an index names; 0x03 to 0x07 and 0x23 to 0xFF name none (R197). -/
def cfgItemOfIndex (i : Byte) : Option CfgItem :=
  if i = 0x00#8 then some .enables
  else if i = 0x01#8 then some .prescaler
  else if i = 0x02#8 then some .selections
  else if i.extractLsb' 3 5 = 0x01#5 then some (.line (i.extractLsb' 0 3).toFin)
  else if i.extractLsb' 2 6 = 0x04#6 then some (.setup (i.extractLsb' 0 2).toFin)
  else if i.extractLsb' 2 6 = 0x05#6 then some (.timeoutHi (i.extractLsb' 0 2).toFin)
  else if i.extractLsb' 2 6 = 0x06#6 then some (.timeoutLo (i.extractLsb' 0 2).toFin)
  else if i.extractLsb' 2 6 = 0x07#6 then some (.status (i.extractLsb' 0 2).toFin)
  else if i = 0x20#8 then some .levelsLow
  else if i = 0x21#8 then some .levelsHigh
  else if i = 0x22#8 then some .threshold
  else none

/-- Item 0x00: bit 2 TB2, bit 1 TB1, bit 0 TB0 (R198). -/
def enablesWord (e : PerTb Bool) : Word := 0#13 ++ bit e.step ++ bit e.edge ++ bit e.clock

/-- The three enables of a write to item 0x00 (R198). -/
def enablesOfWord (w : Word) : PerTb Bool := ⟨w.getLsbD 0, w.getLsbD 1, w.getLsbD 2⟩

/-- 0 rise, 1 fall, 2 both (R198). -/
def edgeKindCode : EdgeKind → BitVec 2
  | .rise => 0#2
  | .fall => 1#2
  | .both => 2#2

/-- The edge kind a written code stores: code 3 stores both (R198). -/
def edgeKindOfCode (b : BitVec 2) : EdgeKind :=
  if b = 0#2 then .rise else if b = 1#2 then .fall else .both

/-- One selection as a five-bit field: on, edge kind, input line (R198). -/
def selectionCode (s : EdgeSelection) : BitVec 5 :=
  bit s.on ++ edgeKindCode s.kind ++ BitVec.ofFin (w := 2) s.line

/-- One selection from its five-bit field (R198). -/
def selectionOfCode (b : BitVec 5) : EdgeSelection where
  on := b.getLsbD 4
  kind := edgeKindOfCode (b.extractLsb' 2 2)
  line := (b.extractLsb' 0 2).toFin

/-- Item 0x02: the clear selection in bits 12-8, the count selection in bits 4-0 (R198). -/
def selectionsWord (count clear : EdgeSelection) : Word :=
  0#3 ++ selectionCode clear ++ 0#3 ++ selectionCode count

/-- Item 0x08+n: bit 2 pulse policy, bit 1 safe level, bit 0 polarity (R198). -/
def lineConfigWord (l : Line) : Word :=
  0#13 ++ bit (l.pulsePolicy == .refuse) ++ bit (levelBit l.safeLevel) ++ bit (l.polarity == .activeLow)

/-- The code of a mode (R198). -/
def modeCode : MeasMode → BitVec 2
  | .periodRise => 0#2
  | .periodFall => 1#2
  | .high => 2#2
  | .low => 3#2

/-- The mode a code names (R198). -/
def modeOfCode (b : BitVec 2) : MeasMode :=
  if b = 0#2 then .periodRise else if b = 1#2 then .periodFall else if b = 2#2 then .high else .low

/-- The code of a rounding (R198). -/
def roundingCode : Rounding → BitVec 2
  | .trunc => 0#2
  | .halfUp => 1#2
  | .halfEven => 2#2

/-- The rounding a written code stores: code 3 stores TRUNC (R125, R198). -/
def roundingOfCode (b : BitVec 2) : Rounding :=
  if b = 1#2 then .halfUp else if b = 2#2 then .halfEven else .trunc

/-- The exponent a written four-bit field stores: 9 to 15 store 8 (R125, R198). -/
def exponentOfCode (b : BitVec 4) : Fin 9 := Fin.ofNat 9 (min b.toNat 8)

/-- Item 0x10+c (R198). -/
def setupWord (s : Setup) : Word :=
  0#1 ++ bit s.extremes ++ roundingCode s.rounding ++ BitVec.ofNat 4 s.unitShift.val
    ++ BitVec.ofNat 4 s.windowExponent.val ++ modeCode s.mode ++ BitVec.ofFin (w := 2) s.input

/-- The set-up that a write to item 0x10+c stores (R125, R198). -/
def setupOfWord (w : Word) : Setup where
  extremes := w.getLsbD 14
  rounding := roundingOfCode (w.extractLsb' 12 2)
  unitShift := exponentOfCode (w.extractLsb' 8 4)
  windowExponent := exponentOfCode (w.extractLsb' 4 4)
  mode := modeOfCode (w.extractLsb' 2 2)
  input := (w.extractLsb' 0 2).toFin

/-- The code of a channel state (R198). -/
def channelStateCode : ChannelState → BitVec 2
  | .off => 0#2
  | .waitStart => 1#2
  | .timing => 2#2

/-- Item 0x1C+c: bit 4 LIMIT, bits 1-0 state (R198). -/
def channelStatusWord (c : Channel) : Word :=
  0#11 ++ bit c.limit ++ 0#2 ++ channelStateCode c.state

/-- The two-bit code of a level setting (R166). -/
def settingCode : NotifySetting → BitVec 2
  | .disabled => 0#2
  | .level n => BitVec.ofNat 2 (n.val + 1)

/-- The level setting a two-bit code names (R166). -/
def settingOfCode (b : BitVec 2) : NotifySetting :=
  if b = 0#2 then .disabled else if b = 1#2 then .level 0 else if b = 2#2 then .level 1 else .level 2

/-- Item 0x20: bits 2s+1..2s hold the setting of source s + 3, for s = 0 to 7 (R198). -/
def levelsLowWord (v : Vector NotifySetting 11) : Word :=
  BitVec.ofFnLE fun i : Fin 16 => (settingCode v[i.val / 2]).getLsbD (i.val % 2)

/-- Item 0x21: bits 2s+1..2s hold the setting of source s + 11, for s = 0 to 2 (R198). -/
def levelsHighWord (v : Vector NotifySetting 11) : Word :=
  BitVec.ofFnLE fun i : Fin 16 =>
    if h : i.val < 6 then (settingCode v[8 + i.val / 2]).getLsbD (i.val % 2) else false

/-- The threshold that a write to item 0x22 stores, from bits 7-0: 0 stores 1, above 16 stores 16 (R156, R198). -/
def thresholdOfWord (w : Word) : Nat :=
  max Config.thresholdMin (min (w.extractLsb' 0 8).toNat Config.thresholdMax)

/-! ### The view registers (R199, R200) -/

/-- The status field of COMMAND_RESULT (R199). -/
def commandStatusCode : CommandStatus → BitVec 4
  | .noResult => 0#4
  | .ok => 1#4
  | .late => 2#4
  | .badState => 3#4
  | .badField => 4#4
  | .badCommand => 5#4

/-- COMMAND_RESULT as a word (R199). -/
def resultWord (r : CommandResult) : Word := commandStatusCode r.status ++ r.code ++ r.detail

/-- The SAFE state field of STATUS (R200). -/
def safeStateCode : SafeState → BitVec 2
  | .run => 0#2
  | .active => 1#2
  | .cleared => 2#2

/-- The two-bit code of a force (R200). -/
def forceCode : Force → BitVec 2
  | .released => 0#2
  | .low => 1#2
  | .high => 2#2

/-- The force a written code leaves on a line: code 3 keeps the force it had (R104, R200). -/
def forceOfCode (b : BitVec 2) (old : Force) : Force :=
  if b = 0#2 then .released else if b = 1#2 then .low else if b = 2#2 then .high else old

/-- LINE_FORCE: bits 2n+1..2n for line n (R200). -/
def lineForceWord (lines : Vector Line 8) : Word :=
  BitVec.ofFnLE fun i : Fin 16 => (forceCode lines[i.val / 2].force).getLsbD (i.val % 2)

/-- A register with bit n for line n: PIN_LEVELS and SCHED_LEVELS (R200). -/
def lineLevelsWord (level : Fin 8 → Level) : Word :=
  BitVec.ofFnLE fun i : Fin 16 => if h : i.val < 8 then levelBit (level ⟨i.val, h⟩) else false

/-- NOTIFY_PENDING: bit s for source s, 1 to 13 (R200). -/
def notifyPendingWord (flags : Vector Bool 13) : Word :=
  BitVec.ofFnLE fun i : Fin 16 => if h : 1 ≤ i.val ∧ i.val ≤ 13 then flags[i.val - 1] else false

/-- FAULT: bits 3-0 (R200). -/
def faultWord (f : FaultBits) : Word :=
  0#12 ++ bit f.completeUnderflow ++ bit f.badIndex ++ bit f.stageConflict ++ bit f.cmdOverrun

/-- What a write to FAULT leaves of its bits: each bit written 1 is cleared (R179). -/
def faultAfterWrite (w : Word) (f : FaultBits) : FaultBits where
  cmdOverrun := f.cmdOverrun && !(w.getLsbD 0)
  stageConflict := f.stageConflict && !(w.getLsbD 1)
  badIndex := f.badIndex && !(w.getLsbD 2)
  completeUnderflow := f.completeUnderflow && !(w.getLsbD 3)

/-! ### The report records (R149, R150, R201) -/

/-- The kind field of a record's header (R201). -/
def reportKindCode : Report → BitVec 4
  | .fired _ _ _ _ => 1#4
  | .refused _ _ _ _ => 2#4
  | .skipped _ _ => 3#4
  | .meas _ _ _ _ => 4#4
  | .stall _ => 5#4
  | .closed _ _ => 6#4

/-- The timebase field of a header: 0 for MEAS, STALL and CLOSED (R149). -/
def reportTimebase : Report → BitVec 2
  | .fired _ t _ _ => timebaseCode t
  | .refused _ t _ _ => timebaseCode t
  | .skipped _ t => timebaseCode t
  | .meas _ _ _ _ => 0#2
  | .stall _ => 0#2
  | .closed _ _ => 0#2

/-- The flags field of a header, bit 8 first (R201). -/
def reportFlags : Report → BitVec 4
  | .fired _ _ _ f => bit f.last ++ bit f.late ++ bit f.cut ++ bit f.absorbed
  | .refused _ _ byAction byGroup => bit byAction ++ bit byGroup ++ 0#2
  | .skipped _ _ => 0#4
  | .meas _ _ extremes limited => bit extremes.isSome ++ bit limited ++ 0#2
  | .stall _ => 0#4
  | .closed _ _ => 0#4

/-- The id field of a header: the slot or the channel (R149). -/
def reportId : Report → BitVec 5
  | .fired i _ _ _ => BitVec.ofFin (w := 5) i
  | .refused i _ _ _ => BitVec.ofFin (w := 5) i
  | .skipped i _ => BitVec.ofFin (w := 5) i
  | .meas c _ _ _ => BitVec.ofNat 5 c.val
  | .stall c => BitVec.ofNat 5 c.val
  | .closed c _ => BitVec.ofNat 5 c.val

/-- The content words of a record, in order (R150). -/
def reportContent : Report → List Word
  | .fired _ _ due _ => [0#8 ++ due.extractLsb' 16 8, due.extractLsb' 0 16]
  | .refused _ _ _ _ => []
  | .skipped _ _ => []
  | .meas _ mean none _ => [mean]
  | .meas _ mean (some (lo, hi)) _ => [mean, lo, hi]
  | .stall _ => []
  | .closed _ count => [count]

/-- The header word of a record (R149, R201). -/
def reportHeader (r : Report) (gap : Nat) : Word :=
  reportKindCode r ++ bit (decide (gap ≠ 0)) ++ reportTimebase r ++ reportFlags r ++ reportId r

/-- All the words of a queued record: header, gap word when its gap count is not 0, content words (R151). -/
def queuedWords (q : Queued) : List Word :=
  reportHeader q.report q.gap :: ((if q.gap = 0 then [] else [BitVec.ofNat 16 q.gap]) ++ reportContent q.report)

/-- The words of a queued record not yet returned by a read of REPORT_DATA (R147). -/
def unreadWords (q : Queued) : List Word := (queuedWords q).drop q.read

/-- REPORT_COUNT: the records with an unread word in bits 15-8, the unread words in bits 7-0 (R159, R200). -/
def reportCountWord (records words : Nat) : Word := BitVec.ofNat 8 records ++ BitVec.ofNat 8 words

end Sys2Proof.Machine
end

