-- ==== Sys2Proof/Machine/Flags.lean ====
section
/-!
DEFINITION. The notification controller (chapter 9): pending flags, levels, eligibility and IRQ_N, claim and complete, and
the FAULT register.
-/
namespace Sys2Proof.Machine

/-- The thirteen sources in the order of their numbers 1 to 13 (R165). -/
def allSources : List Source :=
  [.fault, .safe, .report, .lost, .mc 0, .mc 1, .mc 2, .mc 3, .wrap .clock, .wrap .edge, .wrap .step, .entry, .cmdDone]

/-- The source's number less one, its place among the flags (R165). -/
def sourceIndex : Source → Fin 13
  | .fault => 0
  | .safe => 1
  | .report => 2
  | .lost => 3
  | .mc c => ⟨4 + c.val, by omega⟩
  | .wrap .clock => 8
  | .wrap .edge => 9
  | .wrap .step => 10
  | .entry => 11
  | .cmdDone => 12

/-- The source's number, 1 to 13, which a claim returns (R165, R171). -/
def sourceNumber (src : Source) : Nat := (sourceIndex src).val + 1

/-- The source's level, `none` while it is disabled: FAULT and SAFE stand fixed at level 3, the others at their setting
(R166). -/
def sourceLevel (n : NotifyUnit) (src : Source) : Option (Fin 4) :=
  if h : 2 ≤ (sourceIndex src).val then
    match n.settings[(sourceIndex src).val - 2] with
    | .disabled => none
    | .level l => some l.castSucc
  else some 3

/-- The pending flag of a source (R167). -/
def sourcePending (n : NotifyUnit) (src : Source) : Bool := n.flags[sourceIndex src]

/-- A cause reaches a source: its flag is set when the source is enabled, and a cause of a disabled source is not
recorded (R167). -/
def notifyCause (src : Source) (n : NotifyUnit) : NotifyUnit :=
  if (sourceLevel n src).isSome then { n with flags := n.flags.set (sourceIndex src) true } else n

/-- A level as a number: OPEN 0, then level 0 as 1, up to level 3 as 4 (R169). -/
def handlingRank : Handling → Nat
  | .openLevel => 0
  | .level l => l.val + 1

/-- Whether a source is eligible: pending, enabled, and of a level above the current level (R170). -/
def sourceEligible (n : NotifyUnit) (src : Source) : Bool :=
  match sourceLevel n src with
  | none => false
  | some l => sourcePending n src && decide (handlingRank n.current < l.val + 1)

/-- IRQ_N is asserted exactly while some source is eligible (R170). -/
def irqAsserted (n : NotifyUnit) : Bool := allSources.any (sourceEligible n)

/-- The better of two eligible sources, the first of them the lower in number: the higher level, then the lower number
(R171). -/
def betterSource (n : NotifyUnit) : Option Source → Source → Option Source
  | none, src => if sourceEligible n src then some src else none
  | some best, src =>
    if sourceEligible n src && decide ((sourceLevel n best).getD 0 < (sourceLevel n src).getD 0) then some src else some best

/-- The source a claim selects, if any is eligible (R171). -/
def bestSource (n : NotifyUnit) : Option Source := allSources.foldl (betterSource n) none

/-- The word a claim returns: the selected source's number, or 0 when none is eligible (R171, R172). -/
def claimWord (n : NotifyUnit) : Word :=
  match bestSource n with
  | none => 0#16
  | some src => BitVec.ofNat 16 (sourceNumber src)

/-- What a claim does: it clears the selected flag, pushes the current level and raises it to the source's level; with
nothing eligible it changes nothing (R171, R172). -/
def notifyClaim (n : NotifyUnit) : NotifyUnit :=
  match bestSource n with
  | none => n
  | some src =>
    { n with
      flags := n.flags.set (sourceIndex src) false
      stack := n.current :: n.stack
      current := .level ((sourceLevel n src).getD 0) }

/-- One occurrence of a fault: its bit is set and the FAULT source is set pending (R178). -/
def notifyFault (raiseBit : FaultBits → FaultBits) (n : NotifyUnit) : NotifyUnit :=
  notifyCause .fault { n with faults := raiseBit n.faults }

/-- What a complete does: it pops the claim stack into the current level, or raises COMPLETE_UNDERFLOW when the stack is
empty (R174, R175). -/
def notifyComplete (n : NotifyUnit) : NotifyUnit :=
  match n.stack with
  | [] => notifyFault (fun f => { f with completeUnderflow := true }) n
  | top :: rest => { n with current := top, stack := rest }

/-- Sets the level setting at a position; a setting of DISABLED clears the source's flag at the same moment (R166,
R167). -/
def notifySetLevel (k : Fin 11) (setting : NotifySetting) (n : NotifyUnit) : NotifyUnit :=
  { n with
    settings := n.settings.set k setting
    flags := if setting = .disabled then n.flags.set (k.val + 2) false else n.flags }

/-- A write of item 0x20: the settings of sources 3 to 10 (R166, R198). -/
def notifyWriteLow (w : Word) (n : NotifyUnit) : NotifyUnit :=
  (List.finRange 8).foldl
    (fun n k => notifySetLevel ⟨k.val, by omega⟩ (settingOfCode (w.extractLsb' (2 * k.val) 2)) n) n

/-- A write of item 0x21: the settings of sources 11 to 13 (R166, R198). -/
def notifyWriteHigh (w : Word) (n : NotifyUnit) : NotifyUnit :=
  (List.finRange 3).foldl
    (fun n k => notifySetLevel ⟨8 + k.val, by omega⟩ (settingOfCode (w.extractLsb' (2 * k.val) 2)) n) n

/-- ENGINE_RESET clears the flags, the current level and the stack, and keeps the settings and FAULT (R181). -/
def notifyEngineReset (n : NotifyUnit) : NotifyUnit :=
  { n with flags := Vector.replicate 13 false, current := .openLevel, stack := [] }

end Sys2Proof.Machine
end

