-- ==== Sys2Proof/Machine/Ops.lean ====
section
/-!
DEFINITION. The named operations every block shares: one setter for each block of State, reads and writes of a slot, a due
list, a timebase, a line and a channel, the raising of a notification, and the report queue (chapter 8).
-/
namespace Sys2Proof.Machine

/-! ### Timebases as indices -/

/-- The item of a timebase. -/
def PerTb.get {α : Type} (p : PerTb α) : Timebase → α
  | .clock => p.clock
  | .edge => p.edge
  | .step => p.step

/-- Replaces the item of a timebase. -/
def PerTb.set {α : Type} (p : PerTb α) (t : Timebase) (x : α) : PerTb α :=
  match t with
  | .clock => { p with clock := x }
  | .edge => { p with edge := x }
  | .step => { p with step := x }

/-! ### All the items of a vector -/

/-- Changes every item of a vector; the kernel can evaluate it. -/
def mapItems {α : Type} {n : Nat} (f : α → α) (v : Vector α n) : Vector α n := v.mapFinIdx fun _ x _ => f x

/-! ### Setters, one for each block -/

def State.setReadWord (s : State) (x : Word) : State := { s with readWord := x }
def State.setTb (s : State) (x : TimebaseUnit) : State := { s with tb := x }
def State.setSched (s : State) (x : Scheduler) : State := { s with sched := x }
def State.setNotices (s : State) (x : ArrivalNotices) : State := { s with notices := x }
def State.setLines (s : State) (x : Vector Line 8) : State := { s with lines := x }
def State.setInputs (s : State) (x : InputUnit) : State := { s with inputs := x }
def State.setMeas (s : State) (x : MeasUnit) : State := { s with meas := x }
def State.setQueue (s : State) (x : ReportQueue) : State := { s with queue := x }
def State.setNotify (s : State) (x : NotifyUnit) : State := { s with notify := x }
def State.setWindow (s : State) (x : Window) : State := { s with window := x }

/-! ### Reads and writes of one thing -/

/-- The value of a timebase (R24). -/
def State.tbValue (s : State) (t : Timebase) : Tick := s.tb.values.get t

/-- Sets the value of a timebase, leaving its enable, its snapshot and the prescaler phase as they are (R35). -/
def State.setTbValue (s : State) (t : Timebase) (v : Tick) : State :=
  s.setTb { s.tb with values := s.tb.values.set t v }

/-- A slot of the action table (R1). -/
def State.slot (s : State) (i : SlotId) : Slot := s.sched.slots[i]

/-- Replaces one slot. -/
def State.setSlot (s : State) (i : SlotId) (sl : Slot) : State :=
  s.setSched { s.sched with slots := s.sched.slots.set i sl }

/-- The due list of a timebase, in list order (R43). -/
def State.dueList (s : State) (t : Timebase) : List SlotId := s.sched.lists.get t

/-- Replaces the due list of a timebase. -/
def State.setDueList (s : State) (t : Timebase) (l : List SlotId) : State :=
  s.setSched { s.sched with lists := s.sched.lists.set t l }

/-- Replaces the batch records held (R68). -/
def State.setBatches (s : State) (bs : List BatchRecord) : State :=
  s.setSched { s.sched with batches := bs }

/-- A line record (R93). -/
def State.line (s : State) (n : Fin 8) : Line := s.lines[n]

/-- Replaces one line record. -/
def State.setLine (s : State) (n : Fin 8) (l : Line) : State := s.setLines (s.lines.set n l)

/-- A channel record (R124). -/
def State.channel (s : State) (c : Fin 4) : Channel := s.meas.channels[c]

/-- Replaces one channel record. -/
def State.setChannel (s : State) (c : Fin 4) (ch : Channel) : State :=
  s.setMeas { s.meas with channels := s.meas.channels.set c ch }

/-- The configuration items of a channel (R125). -/
def State.channelItems (s : State) (c : Fin 4) : ChannelItems := s.meas.items[c]

/-- Replaces the configuration items of a channel. -/
def State.setChannelItems (s : State) (c : Fin 4) (items : ChannelItems) : State :=
  s.setMeas { s.meas with items := s.meas.items.set c items }

/-! ### Notifications -/

/-- A cause reaches a source of the notification controller (R167). -/
def raiseSource (src : Source) (s : State) : State := s.setNotify (notifyCause src s.notify)

/-- One occurrence of a fault of the window (R178). -/
def raiseFault (raiseBit : FaultBits → FaultBits) (s : State) : State := s.setNotify (notifyFault raiseBit s.notify)

/-! ### The report queue -/

/-- The number of unread words in the queue (R148). -/
def queueWords (q : ReportQueue) : Nat := (q.records.map fun r => (unreadWords r).length).sum

/-- The number of records with at least one unread word (R159). -/
def queueRecords (q : ReportQueue) : Nat := (q.records.filter fun r => decide (unreadWords r ≠ [])).length

/-- The words a handed record needs: its length without a gap, plus one when records were lost before it (R151). -/
def wordsNeeded (q : ReportQueue) (r : Report) : Nat :=
  1 + (reportContent r).length + (if 0 < q.lost then 1 else 0)

/-- Whether a handed record fits the free space (R151). -/
def recordFits (q : ReportQueue) (r : Report) : Bool := decide (wordsNeeded q r + queueWords q ≤ Config.queueCapacity)

/-- The queue after an append: the record at the tail with the lost count as its gap, and the count 0 (R151). -/
def queueAppend (q : ReportQueue) (r : Report) : ReportQueue :=
  { q with records := q.records ++ [⟨r, q.lost, 0⟩], lost := 0 }

/-- The queue after a drop: the lost count one higher, saturating (R152). -/
def queueDrop (q : ReportQueue) : ReportQueue := { q with lost := min (q.lost + 1) Config.lostLimit }

/-- A producer hands a record: it is appended whole, and REPORT is raised when the record count is then at or above the
threshold (R151, R155), or it is dropped whole and LOST is raised (R152). -/
def handReport (r : Report) (s : State) : State :=
  if recordFits s.queue r then
    let s' := s.setQueue (queueAppend s.queue r)
    if s'.queue.threshold ≤ queueRecords s'.queue then raiseSource .report s' else s'
  else raiseSource .lost (s.setQueue (queueDrop s.queue))

/-- The word a read of REPORT_DATA returns: the oldest unread word, or 0x0000 from an empty queue (R157, R158). -/
def oldestWord : List Queued → Word
  | [] => 0#16
  | r :: rest =>
    match unreadWords r with
    | [] => oldestWord rest
    | w :: _ => w

/-- What a read of REPORT_DATA leaves: the oldest unread word is gone, and its record with it when that was its last
(R157); nothing changes when there is none (R158). -/
def popWord : List Queued → List Queued
  | [] => []
  | r :: rest =>
    match unreadWords r with
    | [] => r :: popWord rest
    | [_] => rest
    | _ :: _ :: _ => { r with read := r.read + 1 } :: rest

end Sys2Proof.Machine
end

