-- ==== Sys2Proof/Machine/Channels.lean ====
section
/-!
DEFINITION. The measurement unit (chapter 7): opens and closes, edges and samples, the result arithmetic, stalls, and the
events that interrupt an interval.
-/
namespace Sys2Proof.Machine

/-- The channels in ascending number, the order in which one event reaches them (R124). -/
def allChannels : List (Fin 4) := List.finRange 4

/-- A channel hands a record to the queue and sets its source pending, whether the record is kept or dropped (R143). -/
def handChannelReport (c : Fin 4) (r : Report) (s : State) : State := handReport r (raiseSource (.mc c) s)

/-! ### Opening and closing -/

/-- The configuration a channel latches at an open, the timeout assembled from its two items (R126). -/
def latchItems (items : ChannelItems) : Latched := ⟨items.setup, items.timeoutHi ++ items.timeoutLo⟩

/-- A window with no samples (R127). -/
def clearWindow (ch : Channel) : Channel := { ch with count := 0, sum := 0, min := 0, max := 0 }

/-- The open of a channel that is OFF; an open of another changes nothing (R127). -/
def openChannel (c : Fin 4) (s : State) : State :=
  if (s.channel c).state = .off then
    s.setChannel c (clearWindow { s.channel c with state := .waitStart, latched := latchItems (s.channelItems c) })
  else s

/-- The close of a channel that is open: OFF, a CLOSED record with the window count, and the window cleared; a close of an
OFF channel changes nothing (R128). -/
def closeChannel (c : Fin 4) (s : State) : State :=
  if (s.channel c).state = .off then s
  else
    handChannelReport c (.closed c (BitVec.ofNat 16 (s.channel c).count))
      (s.setChannel c (clearWindow { s.channel c with state := .off }))

/-! ### Result arithmetic -/

/-- A value divided by a divisor and rounded by a mode (R138, R139). -/
def roundDivide (mode : Rounding) (x d : Nat) : Nat :=
  match mode with
  | .trunc => x / d
  | .halfUp => if d ≤ 2 * (x % d) then x / d + 1 else x / d
  | .halfEven =>
    if d < 2 * (x % d) ∨ (2 * (x % d) = d ∧ (x / d) % 2 = 1) then x / d + 1 else x / d

/-- The mean of a full window in units of 2^u ticks (R138). -/
def windowMean (ch : Channel) : Nat :=
  roundDivide ch.latched.setup.rounding ch.sum
    (2 ^ (ch.latched.setup.windowExponent.val + ch.latched.setup.unitShift.val))

/-- An extreme in units of 2^u ticks (R139). -/
def scaledExtreme (ch : Channel) (x : Nat) : Nat :=
  roundDivide ch.latched.setup.rounding x (2 ^ ch.latched.setup.unitShift.val)

/-- A reported value, limited to 65,535 (R140). -/
def limitedWord (x : Nat) : Word := BitVec.ofNat 16 (min x Config.reportLimit)

/-- Whether a value is limited (R140). -/
def isLimited (x : Nat) : Bool := decide (Config.reportLimit < x)

/-- Whether the MEAS record of a full window carries a limited value; the extremes count only when they are reported
(R139, R140). -/
def windowLimited (ch : Channel) : Bool :=
  isLimited (windowMean ch)
    || (ch.latched.setup.extremes && (isLimited (scaledExtreme ch ch.min) || isLimited (scaledExtreme ch ch.max)))

/-- The MEAS record of a full window (R141). -/
def measReport (c : Fin 4) (ch : Channel) : Report :=
  .meas c (limitedWord (windowMean ch))
    (if ch.latched.setup.extremes then
      some (limitedWord (scaledExtreme ch ch.min), limitedWord (scaledExtreme ch ch.max))
    else none)
    (windowLimited ch)

/-! ### Edges and samples -/

/-- A sample joins the window (R133). -/
def addSample (x : Nat) (ch : Channel) : Channel :=
  { ch with
    count := ch.count + 1
    sum := ch.sum + x
    min := if ch.count = 0 then x else Nat.min ch.min x
    max := if ch.count = 0 then x else Nat.max ch.max x }

/-- Whether the window is full (R133). -/
def windowFull (ch : Channel) : Bool := decide (2 ^ ch.latched.setup.windowExponent.val ≤ ch.count)

/-- A channel with a sample just taken: a full window gives its MEAS record, is cleared, and sets LIMIT when a value was
limited (R133, R140). -/
def settleWindow (c : Fin 4) (ch : Channel) (s : State) : State :=
  if windowFull ch then
    handChannelReport c (measReport c ch)
      (s.setChannel c (clearWindow { ch with limit := ch.limit || windowLimited ch }))
  else s.setChannel c ch

/-- Whether an edge begins an interval in a mode (R131, R132). -/
def startsInterval : MeasMode → Edge → Bool
  | .periodRise, e => e == .rise
  | .periodFall, e => e == .fall
  | .high, e => e == .rise
  | .low, e => e == .fall

/-- Whether an edge ends an interval in a mode (R131, R132). -/
def endsInterval : MeasMode → Edge → Bool
  | .periodRise, e => e == .rise
  | .periodFall, e => e == .fall
  | .high, e => e == .fall
  | .low, e => e == .rise

/-- Whether the end of an interval begins the next one: in the PERIOD modes (R131). -/
def runsOn : MeasMode → Bool
  | .periodRise => true
  | .periodFall => true
  | .high => false
  | .low => false

/-- A channel handles an accepted edge, `v` being the TB0 value read (R131, R132). -/
def acceptEdge (c : Fin 4) (e : Edge) (v : Tick) (s : State) : State :=
  let ch := s.channel c
  match ch.state with
  | .off => s
  | .waitStart =>
    if startsInterval ch.latched.setup.mode e then s.setChannel c { ch with state := .timing, start := v } else s
  | .timing =>
    if endsInterval ch.latched.setup.mode e then
      let sampled := addSample (v - ch.start).toNat ch
      settleWindow c
        (if runsOn ch.latched.setup.mode then { sampled with start := v } else { sampled with state := .waitStart }) s
    else s

/-- A channel receives an edge of its latched line when it is not OFF, and accepts it when TB0 is enabled (R130). -/
def channelEdge (line : Fin 4) (e : Edge) (c : Fin 4) (s : State) : State :=
  if (s.channel c).state ≠ .off ∧ (s.channel c).latched.setup.input = line ∧ s.tb.enables.clock = true then
    acceptEdge c e (s.tbValue .clock) s
  else s

/-- The third step of an edge's dispatch: the channels one at a time in ascending number (R111, R124). -/
def channelsEdge (line : Fin 4) (e : Edge) (s : State) : State :=
  allChannels.foldl (fun s c => channelEdge line e c s) s

/-! ### Stalls and interrupted intervals -/

/-- Whether a TB0 arrival onto a value stalls a channel: TIMING, a timeout that is not 0, and the elapsed ticks at or above
it (R134). -/
def intervalStalls (v : Tick) (ch : Channel) : Bool :=
  decide (ch.state = .timing ∧ ch.latched.timeout ≠ 0#24 ∧ ch.latched.timeout.toNat ≤ (v - ch.start).toNat)

/-- The stall check of one channel (R134). -/
def stallChannel (v : Tick) (c : Fin 4) (s : State) : State :=
  if intervalStalls v (s.channel c) then
    handChannelReport c (.stall c) (s.setChannel c { s.channel c with state := .waitStart })
  else s

/-- The stall checks of a TB0 arrival, in ascending channel number (R134, R136). -/
def stallCheck (v : Tick) (s : State) : State := allChannels.foldl (fun s c => stallChannel v c s) s

/-- A channel whose interval in progress is discarded (R137). -/
def interruptChannel (ch : Channel) : Channel :=
  match ch.state with
  | .timing => { ch with state := .waitStart }
  | .off => ch
  | .waitStart => ch

/-- Every channel in TIMING goes back to WAIT_START without a record (R137). -/
def interruptIntervals (s : State) : State :=
  s.setMeas { s.meas with channels := mapItems interruptChannel s.meas.channels }

/-- A channel at ENGINE_RESET (R146). -/
def engineResetChannel (ch : Channel) : Channel :=
  clearWindow { ch with state := .off, start := 0#24, limit := false }

end Sys2Proof.Machine
end

