-- ==== Sys2Proof/Machine/Lines.lean ====
section
/-!
DEFINITION. The line unit (chapter 5): the pin level, the line actions and their answers, pulse ends, and the effect of a
load, of the safe state and of a reset on the lines.
-/
namespace Sys2Proof.Machine

/-- What a consumer answers to an action, by which the FIRED record is flagged (R71). -/
inductive Answer where
  | nothing | cut | absorbed
deriving DecidableEq, Repr

/-- The active level of a line (R93). -/
def activeLevel (l : Line) : Level :=
  match l.polarity with
  | .activeHigh => .high
  | .activeLow => .low

/-- The inactive level of a line: the other one (R93). -/
def inactiveLevel (l : Line) : Level :=
  match l.polarity with
  | .activeHigh => .low
  | .activeLow => .high

/-- The opposite level (R96). -/
def oppositeLevel : Level → Level
  | .low => .high
  | .high => .low

/-- The pin level that a line record gives: the safe level under a safe hold, else the forced level, else the scheduled
level (R94). What is driven, `drivenLevel`, takes it of a line whose arrivals have been taken whole. -/
def pinLevel (l : Line) : Level :=
  if l.safeHold then l.safeLevel
  else
    match l.force with
    | .low => .low
    | .high => .high
    | .released => l.scheduled

/-- SET, CLEAR and TOGGLE: the scheduled level changes and a pulse in flight is removed (R96). -/
def levelAction (newLevel : Level → Level) (l : Line) : Line :=
  { l with scheduled := newLevel l.scheduled, pulse := none }

/-- The answer to a level action: CUT when it removed a pulse in flight (R96). -/
def levelAnswer (l : Line) : Answer := if l.pulse.isSome then .cut else .nothing

/-- A PULSE on a line: it starts a pulse where there is none (R97); where there is one, RETRIGGER replaces the pulse and
leaves the level, and REFUSE changes nothing (R98). -/
def pulseAction (p : Pulse) (l : Line) : Line :=
  match l.pulse with
  | none => { l with scheduled := activeLevel l, pulse := some p }
  | some _ =>
    match l.pulsePolicy with
    | .retrigger => { l with pulse := some p }
    | .refuse => l

/-- The answer to a PULSE: ABSORBED when the line refused it (R98). -/
def pulseAnswer (l : Line) : Answer :=
  if l.pulse.isSome && l.pulsePolicy == .refuse then .absorbed else .nothing

/-- The end of a pulse: the inactive level under the polarity then held, and no pulse in flight (R99). -/
def endPulse (l : Line) : Line := { l with scheduled := inactiveLevel l, pulse := none }

/-- Whether a line's pulse in flight is timed on a timebase and ends at a value (R99). -/
def pulseEndsAt (t : Timebase) (v : Tick) (l : Line) : Bool := decide (l.pulse = some ⟨t, v⟩)

/-- Whether a line's pulse in flight is timed on a timebase (R101). -/
def pulseTimedOn (t : Timebase) (l : Line) : Bool :=
  match l.pulse with
  | none => false
  | some p => p.timebase == t

/-- The line unit takes an arrival of a timebase onto a value (R99). -/
def endPulsesAt (t : Timebase) (v : Tick) (s : State) : State :=
  s.setLines (mapItems (fun l => if pulseEndsAt t v l then endPulse l else l) s.lines)

/-- The line unit takes a load of a timebase: every pulse timed on it ends at once (R101). -/
def endPulsesOnLoad (t : Timebase) (s : State) : State :=
  s.setLines (mapItems (fun l => if pulseTimedOn t l then endPulse l else l) s.lines)

/-- The entry into ACTIVE sets the safe hold of every line (R105). -/
def holdLines (s : State) : State := s.setLines (mapItems (fun l => { l with safeHold := true }) s.lines)

/-- RELEASE_LINES in CLEARED clears every safe hold (R106). -/
def releaseHolds (s : State) : State := s.setLines (mapItems (fun l => { l with safeHold := false }) s.lines)

/-- A line at ENGINE_RESET: the scheduled level becomes the safe level, pulse and force go, and the hold stays set unless
the SAFE state is RUN (R109). -/
def engineResetLine (safe : SafeState) (l : Line) : Line :=
  { l with scheduled := l.safeLevel, pulse := none, force := .released, safeHold := decide (safe ≠ .run) }

/-- A write of LINE_FORCE: each line takes the force its two bits name, and code 3 keeps the force it had (R104). -/
def writeForce (w : Word) (s : State) : State :=
  s.setLines (s.lines.mapFinIdx fun n l _ => { l with force := forceOfCode (w.extractLsb' (2 * n) 2) l.force })

/-- A write of item 0x08+n: the three configuration fields, and no run field (R95, R198). -/
def writeLineConfig (n : Fin 8) (w : Word) (s : State) : State :=
  s.setLine n { s.line n with
    pulsePolicy := if w.getLsbD 2 then .refuse else .retrigger
    safeLevel := if w.getLsbD 1 then .high else .low
    polarity := if w.getLsbD 0 then .activeLow else .activeHigh }

end Sys2Proof.Machine
end

