-- ==== Sys2Proof/Machine/Scheduler.lean ====
section
/-!
DEFINITION. The scheduler: due lists, retirement, the arm step, held entries and group cancels (chapters 1 and 3), and the
loads of a timebase with their notices (R36).
-/
namespace Sys2Proof.Machine

/-- The slots in ascending number (R1). -/
def allSlots : List SlotId := List.finRange 32

/-! ### Distance and due lists -/

/-- The distance of a due value from a current value, 1 to 2^24 (R28). -/
def distance (due value : Tick) : Nat := (due - value - 1#24).toNat + 1

/-- Whether a due value is ahead of a current value (R28). -/
def isAhead (due value : Tick) : Bool := decide (distance due value ≤ Config.aheadLimit)

/-- The distance of an entry against the current value of a timebase (R43). -/
def entryDistance (s : State) (t : Timebase) (i : SlotId) : Nat := distance (s.slot i).nextDue (s.tbValue t)

/-- Places an entry after every entry of equal or smaller distance and before every entry of greater distance (R43). -/
def insertEntry (dist : SlotId → Nat) (i : SlotId) : List SlotId → List SlotId
  | [] => [i]
  | j :: rest => if dist j ≤ dist i then j :: insertEntry dist i rest else i :: j :: rest

/-- The stable sort of a due list by distance (R46). -/
def sortEntries (dist : SlotId → Nat) (l : List SlotId) : List SlotId :=
  l.foldl (fun acc i => insertEntry dist i acc) []

/-- An entry joins the due list of its own timebase (R43). -/
def joinList (i : SlotId) (s : State) : State :=
  let t := (s.slot i).record.timebase
  s.setDueList t (insertEntry (entryDistance s t) i (s.dueList t))

/-- An entry leaves the due list of its own timebase, if it is in it (R44). -/
def leaveList (i : SlotId) (s : State) : State :=
  let t := (s.slot i).record.timebase
  s.setDueList t ((s.dueList t).filter (· ≠ i))

/-! ### Retirement -/

/-- What a retirement leaves of a slot: SPENT with its record and run fields when keep is set, else FREE and cleared
(R18). -/
def retiredSlot (sl : Slot) : Slot := if sl.record.keep then { sl with state := .spent } else Slot.empty

/-- Retires a slot that is in no list (R18). -/
def retireSlot (i : SlotId) (s : State) : State := s.setSlot i (retiredSlot (s.slot i))

/-- Retires an ARMED or HELD entry by a cancel, without a record (R18, R19, R60). -/
def cancelEntry (i : SlotId) (s : State) : State := retireSlot i (leaveList i s)

/-- Whether a slot is a member of a group: group 0 has none, and a FREE slot is in none (R8). -/
def isMember (g : BitVec 3) (sl : Slot) : Bool := decide (g ≠ 0#3 ∧ sl.state ≠ .free ∧ sl.record.group = g)

/-- Whether a slot can be armed: STAGED or SPENT (R15, R47). -/
def isArmable (sl : Slot) : Bool := decide (sl.state = .staged ∨ sl.state = .spent)

/-- Whether a slot can be cancelled: ARMED or HELD (R19). -/
def isCancellable (sl : Slot) : Bool := decide (sl.state = .armed ∨ sl.state = .held)

/-- Whether a slot is being fired: waiting or in the firing chain of a batch record held (R51, R68). -/
def beingFired (s : State) (i : SlotId) : Bool :=
  s.sched.batches.any fun b => b.waiting.contains i || b.chain.contains i

/-- Whether a group cancel takes a slot: ARMED or HELD, a member, and not being fired (R51, R60, R61). -/
def cancelTakes (g : BitVec 3) (s : State) (i : SlotId) : Bool :=
  isMember g (s.slot i) && isCancellable (s.slot i) && !(beingFired s i)

/-- A group cancel: every member it takes retires, in ascending slot number (R60, R61). -/
def cancelMembers (g : BitVec 3) (s : State) : State :=
  allSlots.foldl (fun s i => if cancelTakes g s i then cancelEntry i s else s) s

/-- The number of members a group cancel retires (R60). -/
def cancelCount (g : BitVec 3) (s : State) : Nat := (allSlots.filter (cancelTakes g s)).length

/-! ### Loads -/

/-- Whether the skip check drops an entry: behind, with skip policy DROP (R62). -/
def skipDrops (s : State) (t : Timebase) (i : SlotId) : Bool :=
  decide (Config.aheadLimit < entryDistance s t i ∧ (s.slot i).record.skipPolicy = .drop)

/-- Retires one skipped entry with its SKIPPED record, which carries the timebase of the load (R63). -/
def skipEntry (t : Timebase) (i : SlotId) (s : State) : State := handReport (.skipped i t) (retireSlot i s)

/-- The skip check of a load of timebase t: the entries behind under DROP leave the list and retire in the order it had,
and the rest are sorted by their new distances (R46, R62). -/
def skipCheck (t : Timebase) (s : State) : State :=
  let dropped := (s.dueList t).filter (skipDrops s t)
  let kept := (s.dueList t).filter fun i => !(skipDrops s t i)
  dropped.foldl (fun s i => skipEntry t i s) (s.setDueList t (sortEntries (entryDistance s t) kept))

/-- A load of a timebase, with its notices to the scheduler, the line unit and, for TB0, the measurement unit (R35,
R36). -/
def loadTimebase (t : Timebase) (v : Tick) (s : State) : State :=
  let s' := endPulsesOnLoad t (skipCheck t (s.setTbValue t v))
  if t = .clock then interruptIntervals s' else s'

/-! ### The arm step -/

/-- Who makes an arm step: the ARM command, the ARM_GROUP command or an ARM_GROUP action (R48). -/
inductive ArmOrigin where
  | command | groupCommand | action
deriving DecidableEq, Repr

/-- What an arm step found (R47, R52). -/
inductive ArmOutcome where
  | passed | held | armed | refused | fired
deriving DecidableEq, Repr

/-- What the arm step finds a slot to be, against the values the timebases hold (R47). -/
def armOutcome (s : State) (i : SlotId) : ArmOutcome :=
  let sl := s.slot i
  if !(isArmable sl) then .passed
  else if sl.record.holdEdge ≠ .absent then .held
  else if isAhead sl.record.due (s.tbValue sl.record.timebase) then .armed
  else
    match sl.record.latePolicy with
    | .refuse => .refused
    | .fireNow => .fired

/-- A slot as it arms: next due set, remaining fires set to repeat (R9, R10, R47). -/
def armedSlot (state : SlotState) (nextDue : Tick) (sl : Slot) : Slot :=
  { sl with state := state, nextDue := nextDue, remaining := sl.record.repeatCount }

/-- The arm step on one slot (R47 to R49). `fireNow` fires the entry at once, given the value it was judged against; the
entry is ARMED while it is being fired (R2). -/
def armStep (origin : ArmOrigin) (fireNow : SlotId → Tick → State → State) (i : SlotId) (s : State) : State :=
  let sl := s.slot i
  match armOutcome s i with
  | .passed => s
  | .held => s.setSlot i (armedSlot .held 0#24 sl)
  | .armed => joinList i (s.setSlot i (armedSlot .armed sl.record.due sl))
  | .refused =>
    handReport (.refused i sl.record.timebase (origin == .action) (origin == .groupCommand)) s
  | .fired =>
    fireNow i (s.tbValue sl.record.timebase) (s.setSlot i (armedSlot .armed sl.record.due sl))

/-! ### Held entries -/

/-- Whether an edge matches a hold (R58). -/
def holdMatches : HoldEdge → Edge → Bool
  | .absent, _ => false
  | .rise, e => e == .rise
  | .fall, e => e == .fall
  | .both, _ => true

/-- Whether an edge releases a slot: HELD, on its hold line, of its edge kind (R58). -/
def edgeReleases (line : Fin 4) (e : Edge) (sl : Slot) : Bool :=
  decide (sl.state = .held ∧ sl.record.holdLine = line) && holdMatches sl.record.holdEdge e

/-- Releases a HELD entry: next due is its timebase's value plus the offset, and it joins its list (R58). -/
def releaseEntry (i : SlotId) (s : State) : State :=
  let sl := s.slot i
  joinList i (s.setSlot i { sl with
    state := .armed
    nextDue := s.tbValue sl.record.timebase + sl.record.due })

/-- The held-release step of an edge: the matching HELD entries, in ascending slot number (R58). -/
def releaseHeld (line : Fin 4) (e : Edge) (s : State) : State :=
  allSlots.foldl (fun s i => if edgeReleases line e (s.slot i) then releaseEntry i s else s) s

/-- The held set: the slots in state HELD (R2, R57). -/
def heldSet (s : State) : List SlotId := allSlots.filter fun i => decide ((s.slot i).state = .held)

/-- The number of FREE slots (R22). -/
def freeSlots (s : State) : Nat := (allSlots.filter fun i => decide ((s.slot i).state = .free)).length

end Sys2Proof.Machine
end

