-- ==== Sys2Proof/Machine/Firing.lean ====
section
/-!
DEFINITION. Firing (chapter 4): one fire and its four steps, the batch record, the deferred operations, arrivals of each
timebase, and the work of a TB0 arrival that BATCH_FIRE, PULSE_END and STALL take.
-/
namespace Sys2Proof.Machine

/-! ### The batch record -/

/-- The batch record whose entries are firing, if one is held: the innermost (R68). -/
def currentBatch (s : State) : Option BatchRecord := s.sched.batches.head?

/-- Changes the innermost batch record. -/
def updateBatch (f : BatchRecord → BatchRecord) (s : State) : State :=
  match s.sched.batches with
  | [] => s
  | b :: rest => s.setBatches (f b :: rest)

/-- An entry begins to fire: it joins the firing chain, innermost last (R68). -/
def enterChain (i : SlotId) (s : State) : State := updateBatch (fun b => { b with chain := b.chain ++ [i] }) s

/-- An entry's fire has ended: it leaves the firing chain (R68). -/
def leaveChain (i : SlotId) (s : State) : State := updateBatch (fun b => { b with chain := b.chain.filter (· ≠ i) }) s

/-- Adds an operation to the deferred list of the enclosing batch (R86). -/
def addDeferred (op : Deferred) (s : State) : State := updateBatch (fun b => { b with deferred := b.deferred ++ [op] }) s

/-- Whether a timebase is the one of the enclosing batch (R50, R73). -/
def isBatchTimebase (t : Timebase) (s : State) : Bool :=
  match currentBatch s with
  | none => false
  | some b => b.timebase == t

/-! ### Where each action goes (4.2) -/

/-- The line a line action's target names (R4). -/
def targetLine (target : BitVec 3) : Fin 8 := target.toFin

/-- The channel a measurement action's target names, 0 to 3 (R4). -/
def targetChannel (target : BitVec 3) : Fin 4 := (target.extractLsb' 0 2).toFin

/-- SET, CLEAR or TOGGLE on its target line (R72, R96). -/
def fireLevel (newLevel : Level → Level) (r : Record) (s : State) : State × Answer :=
  let n := targetLine r.target
  (s.setLine n (levelAction newLevel (s.line n)), levelAnswer (s.line n))

/-- PULSE on its target line, ending the width after the value of the fire (R72, R97, R98). -/
def firePulse (r : Record) (v : Tick) (s : State) : State × Answer :=
  let n := targetLine r.target
  (s.setLine n (pulseAction ⟨r.timebase, v + r.operand⟩ (s.line n)), pulseAnswer (s.line n))

/-- LOAD_TB: deferred when its target is the enclosing batch's timebase, else taken at the fire (R73). -/
def fireLoad (r : Record) (s : State) : State :=
  match timebaseOfNat r.target.toNat with
  | none => s
  | some t => if isBatchTimebase t s then addDeferred (.load r.operand) s else loadTimebase t r.operand s

/-- STEP: a request in the enclosing batch's deferred list, or given up with ABSORBED inside a batch of TB2 (R74). -/
def fireStep (s : State) : State × Answer :=
  if isBatchTimebase .step s then (s, .absorbed) else (addDeferred .step s, .nothing)

/-- MEAS_OPEN: ABSORBED when the channel is not OFF (R76). -/
def fireOpen (r : Record) (s : State) : State × Answer :=
  let c := targetChannel r.target
  (openChannel c s, if (s.channel c).state = .off then .nothing else .absorbed)

/-- MEAS_CLOSE: ABSORBED when the channel is OFF (R76). -/
def fireClose (r : Record) (s : State) : State × Answer :=
  let c := targetChannel r.target
  (closeChannel c s, if (s.channel c).state = .off then .absorbed else .nothing)

/-- Step 1 of a fire: the action goes to its consumer, and the consumer's answer comes back (R71). `groupArm` is the pass
of an ARM_GROUP action, and `v` the value of the entry's timebase at the fire. -/
def fireAction (groupArm : BitVec 3 → State → State) (r : Record) (v : Tick) (s : State) : State × Answer :=
  match r.kind with
  | none => (s, .nothing)
  | some .set => fireLevel (fun _ => .high) r s
  | some .clear => fireLevel (fun _ => .low) r s
  | some .toggle => fireLevel oppositeLevel r s
  | some .pulse => firePulse r v s
  | some .loadTb => (fireLoad r s, .nothing)
  | some .step => fireStep s
  | some .armGroup => (groupArm r.target s, .nothing)
  | some .cancelGroup => (cancelMembers r.target s, .nothing)
  | some .mark => (s, .nothing)
  | some .measOpen => fireOpen r s
  | some .measClose => fireClose r s

/-! ### One fire (R70) -/

/-- Whether a fire of a slot carries LAST: a periodic entry whose remaining fires is 1 (R79, R82). -/
def isLastFire (sl : Slot) : Bool := decide (sl.record.period ≠ 0#24 ∧ sl.remaining = 1#16)

/-- Whether a fire retires its entry: one-shot, or carrying LAST (R82). -/
def fireRetires (sl : Slot) : Bool := decide (sl.record.period = 0#24) || isLastFire sl

/-- The due value a FIRED record carries: the batch value, or the written due of a fire at once (R78). -/
def firedDue (late : Bool) (v : Tick) (r : Record) : Tick := if late then r.due else v

/-- Step 2 of a fire: the FIRED record, when report is set (R78, R79). -/
def fireReport (i : SlotId) (v : Tick) (late : Bool) (a : Answer) (s : State) : State :=
  let sl := s.slot i
  if sl.record.report then
    handReport
      (.fired i sl.record.timebase (firedDue late v sl.record) ⟨isLastFire sl, late, a == .cut, a == .absorbed⟩) s
  else s

/-- Step 3 of a fire: the ENTRY source, when notify is set (R81). -/
def fireNotify (i : SlotId) (s : State) : State := if (s.slot i).record.notify then raiseSource .entry s else s

/-- What a fire that re-arms leaves of its slot: next due on by the period from the value of the fire, a bounded count
lowered by one (R49, R82). -/
def rearmedSlot (v : Tick) (sl : Slot) : Slot :=
  { sl with
    state := .armed
    nextDue := v + sl.record.period
    remaining := if sl.remaining = 0#16 then 0#16 else sl.remaining - 1#16 }

/-- Step 4 of a fire: the entry retires with remaining fires 0, or re-arms and joins its list (R82 to R84). -/
def fireSettle (i : SlotId) (v : Tick) (s : State) : State :=
  let sl := s.slot i
  if fireRetires sl then s.setSlot i (retiredSlot { sl with remaining := 0#16 })
  else joinList i (s.setSlot i (rearmedSlot v sl))

/-- Whether an ARM_GROUP action's pass takes a slot at its turn: armable, a member, and not being fired (R51, R55). -/
def armTakes (g : BitVec 3) (s : State) (i : SlotId) : Bool :=
  isMember g (s.slot i) && isArmable (s.slot i) && !(beingFired s i)

/-- One pass of an ARM_GROUP action over the slots, ascending; a late member fires at once inside the enclosing batch
(R50, R55, R75). -/
def groupArmPass (fireNow : SlotId → Tick → State → State) (g : BitVec 3) (s : State) : State :=
  allSlots.foldl (fun s i => if armTakes g s i then armStep .action fireNow i s else s) s

/-- One fire of a slot, `v` being the value of its timebase at the fire and `late` whether it is a fire at once (R70). The
first argument bounds the chain of nested fires, which holds at most 32 entries (R51). -/
def fire : Nat → SlotId → Tick → Bool → State → State
  | 0, _, _, _, s => s
  | n + 1, i, v, late, s =>
    let acted := fireAction (groupArmPass fun j w s => fire n j w true s) (s.slot i).record v (enterChain i s)
    leaveChain i (fireSettle i v (fireNotify i (fireReport i v late acted.2 acted.1)))

/-! ### A batch and its deferred list -/

/-- Fires the waiting entries of a batch one at a time, in order; each leaves the waiting set as it begins (R68, R70). -/
def fireWaiting (v : Tick) : List SlotId → State → State
  | [], s => s
  | i :: rest, s =>
    fireWaiting v rest (fire Config.chainLimit i v false (updateBatch (fun b => { b with waiting := rest }) s))

/-- Applies a deferred list one operation at a time: a load of the batch's timebase, or a STEP request (R87). -/
def applyDeferred (stepRequest : State → State) (t : Timebase) : List Deferred → State → State
  | [], s => s
  | .load v :: rest, s =>
    applyDeferred stepRequest t rest (loadTimebase t v (updateBatch (fun b => { b with deferred := rest }) s))
  | .step :: rest, s =>
    applyDeferred stepRequest t rest (stepRequest (updateBatch (fun b => { b with deferred := rest }) s))

/-- Applies what the innermost batch record has collected. -/
def applyCollected (stepRequest : State → State) (t : Timebase) (s : State) : State :=
  match currentBatch s with
  | none => s
  | some b => applyDeferred stepRequest t b.deferred s

/-- Takes the innermost batch record to its end: its waiting entries fire, its deferred list is applied, and the record
is given up (R70, R87). -/
def finishBatch (stepRequest : State → State) (s : State) : State :=
  match s.sched.batches with
  | [] => s
  | b :: rest => (applyCollected stepRequest b.timebase (fireWaiting b.value b.waiting s)).setBatches rest

/-! ### Arrivals -/

/-- The source of a timebase's wrap is set pending by an arrival onto 0 (R26). -/
def raiseWrap (t : Timebase) (v : Tick) (s : State) : State := if v = 0#24 then raiseSource (.wrap t) s else s

/-- Takes the batch of an arrival onto a value out of the due list, as a whole and in list order, into a batch record
(R67, R68). -/
def takeBatch (t : Timebase) (v : Tick) (s : State) : State :=
  let due := (s.dueList t).filter fun i => decide ((s.slot i).nextDue = v)
  let rest := (s.dueList t).filter fun i => decide ((s.slot i).nextDue ≠ v)
  (s.setDueList t rest).setBatches (⟨t, v, due, [], []⟩ :: s.sched.batches)

/-- The timebase unit's part of an arrival: the value advances by one, the wrap is noticed, and the scheduler takes the
batch (R25, R26, R67). -/
def beginArrival (t : Timebase) (s : State) : State :=
  let v := s.tbValue t + 1#24
  takeBatch t v (raiseWrap t v (s.setTbValue t v))

/-- A whole arrival of TB1 or TB2: the line unit takes its pulse ends before any action of the batch (R100), then the
batch fires with its deferred operations (R27, R69). -/
def wholeArrival (stepRequest : State → State) (t : Timebase) (s : State) : State :=
  finishBatch stepRequest (endPulsesAt t (s.tbValue t + 1#24) (beginArrival t s))

/-- A STEP request reaches TB2: an arrival with its batch when TB2 is enabled and SAFE is not ACTIVE, else discarded
(R34). A batch of TB2 gives no STEP request (R89), so none is found in its deferred list. -/
def stepRequest (s : State) : State :=
  if s.tb.enables.step = true ∧ s.inputs.safe ≠ .active then wholeArrival id .step s else s

/-- A fire at once that a host command's arm step makes: a batch of one, its deferred list applied directly after the fire
(R49, R90). -/
def hostFireNow (i : SlotId) (v : Tick) (s : State) : State :=
  let t := (s.slot i).record.timebase
  let held := s.sched.batches
  let opened := s.setBatches (⟨t, v, [], [], []⟩ :: held)
  (applyCollected stepRequest t (fire Config.chainLimit i v true opened)).setBatches held

/-! ### The work of a TB0 arrival -/

/-- A TB0 arrival: the value advances, the batch is taken, and the line unit and the measurement unit have the arrival's
value still to take (R25; log 4). -/
def openClockArrival (s : State) : State :=
  (beginArrival .clock s).setNotices ⟨some (s.tbValue .clock + 1#24), some (s.tbValue .clock + 1#24)⟩

/-- The line unit takes its notice of the TB0 arrival, if it has one to take (R99). -/
def takeLineNotice (s : State) : State :=
  match s.notices.lines with
  | none => s
  | some v => endPulsesAt .clock v (s.setNotices { s.notices with lines := none })

/-- The measurement unit takes its notice of the TB0 arrival, if it has one to take (R134). -/
def takeStallNotice (s : State) : State :=
  match s.notices.stalls with
  | none => s
  | some v => stallCheck v (s.setNotices { s.notices with stalls := none })

/-- The scheduler takes every batch record held to its end (R69). -/
def finishBatches (s : State) : State := s.sched.batches.foldl (fun s _ => finishBatch stepRequest s) s

/-- The scheduler's work of an arrival: the pulse ends of the arrival come before the batch's actions (R100). -/
def takeBatchNotice (s : State) : State := finishBatches (takeLineNotice s)

/-- Finishes what a TB0 arrival has left to do: its pulse ends, its batch and its stall check (R25, R27; log 4). -/
def settle (s : State) : State := takeStallNotice (takeBatchNotice s)

/-- The level driven on the pin of OUTn (R94): what the precedence gives once every arrival has been taken whole, so that a
level a line passes through inside one taking is not driven. -/
def drivenLevel (s : State) (n : Fin 8) : Level := pinLevel ((settle s).line n)

/-- A command that is taken before or after a whole taking, never inside one: it finds every arrival finished (R69). -/
def taken (work : State → State) (s : State) : Host.Outcome State Fault Refusal := .next (work (settle s))

/-! ### The prescaler -/

/-- The prescaler P: code 0 means 256 (R30). -/
def prescalerPeriods (code : Byte) : Nat := if code = 0#8 then 256 else code.toNat

/-- Whether TB0 counts: enabled, and SAFE not ACTIVE (R30). -/
def clockCounts (s : State) : Bool := decide (s.tb.enables.clock = true ∧ s.inputs.safe ≠ .active)

/-- The prescaler phase at a value. -/
def setPhase (p : Nat) (s : State) : State := s.setTb { s.tb with phase := p }

/-- The phase completes: it returns to 0 and TB0 takes an arrival (R30). -/
def completePhase (s : State) : State := if clockCounts s then openClockArrival (setPhase 0 s) else s

/-- One CLK period: it raises the phase, and completes it when the raise would bring it to P; while TB0 does not count,
the phase is held (R30). -/
def clockPeriod (s : State) : State :=
  if clockCounts s then
    if s.tb.phase + 1 < prescalerPeriods s.tb.prescaler then setPhase (s.tb.phase + 1) s else completePhase s
  else s

end Sys2Proof.Machine
end

