-- ==== Sys2Proof/Machine/Engine.lean ====
section
/-!
DEFINITION. The command engine (10.2, 10.3): acceptance and refusal of a command word, completion, and the work of each of
the thirteen host commands.
-/
namespace Sys2Proof.Machine

/-! ### Acceptance and completion -/

/-- The code of the command in progress (R186). -/
def jobCode : Job → CommandCode
  | .writeSlot _ => .writeSlot
  | .readSlot => .readSlot
  | .freeSlot => .freeSlot
  | .arm => .arm
  | .armGroup _ _ => .armGroup
  | .cancel => .cancel
  | .cancelGroup => .cancelGroup
  | .loadTb => .loadTb
  | .measStart => .measStart
  | .measStop => .measStop
  | .flushReports => .flushReports
  | .releaseLines => .releaseLines
  | .engineReset => .engineReset

/-- What the command record holds for a command at its acceptance: WRITE_SLOT captures its record from the staging bank,
ARM_GROUP starts at slot 0 with count 0 (R186, R187). -/
def startJob (c : CommandCode) (staging : Vector Word 10) : Job :=
  match c with
  | .writeSlot => .writeSlot (captureRecord staging)
  | .readSlot => .readSlot
  | .freeSlot => .freeSlot
  | .arm => .arm
  | .armGroup => .armGroup 0 0
  | .cancel => .cancel
  | .cancelGroup => .cancelGroup
  | .loadTb => .loadTb
  | .measStart => .measStart
  | .measStop => .measStop
  | .flushReports => .flushReports
  | .releaseLines => .releaseLines
  | .engineReset => .engineReset

/-- Steps 2 to 4 of a completion: COMMAND_RESULT is written, the engine is IDLE, and CMD_DONE is raised (R188). -/
def completeCommand (status : CommandStatus) (code : BitVec 4) (detail : Byte) (s : State) : State :=
  raiseSource .cmdDone
    (s.setWindow { s.window with result := ⟨status, code, detail⟩, engine := none })

/-- A refusal at acceptance: COMMAND takes the word, and the completion has no work (R187, R188). -/
def refuseCommand (status : CommandStatus) (w : Word) (s : State) : State :=
  completeCommand status (commandBits w) (commandArgument w) (s.setWindow { s.window with command := w })

/-- The acceptance of a command word: COMMAND takes the word and the engine goes BUSY (R187). -/
def acceptCommand (c : CommandCode) (w : Word) (s : State) : State :=
  s.setWindow { s.window with
    command := w
    engine := some ⟨startJob c s.window.staging, commandArgument w⟩ }

/-- A write to COMMAND: discarded with CMD_OVERRUN while BUSY, else refused at acceptance or accepted (R187). -/
def commandWrite (w : Word) (s : State) : State :=
  match s.window.engine with
  | some _ => raiseFault (fun f => { f with cmdOverrun := true }) s
  | none =>
    match decodeCommand w with
    | none => refuseCommand .badCommand w s
    | some c => if c.admits (commandArgument w) then acceptCommand c w s else refuseCommand .badField w s

/-- The completion of the command in progress with a status and a detail (R188, R189). -/
def finishCommand (rec : CommandRecord) (status : CommandStatus) (detail : Byte) (s : State) : State :=
  completeCommand status (jobCode rec.job).bits detail s

/-! ### Arguments -/

/-- The slot an argument names, taken from its lower bits (R20). -/
def argumentSlot (a : Byte) : SlotId := (a.extractLsb' 0 5).toFin

/-- The group an argument names. -/
def argumentGroup (a : Byte) : BitVec 3 := a.extractLsb' 0 3

/-- The channel an argument names. -/
def argumentChannel (a : Byte) : Fin 4 := (a.extractLsb' 0 2).toFin

/-! ### WRITE_SLOT, READ_SLOT, FREE_SLOT -/

/-- Whether a record's target lies in the range of its kind (R4, condition 3 of R12). -/
def targetInRange (k : Kind) (target : BitVec 3) : Bool :=
  match k with
  | .set => true
  | .clear => true
  | .toggle => true
  | .pulse => true
  | .loadTb => target.toNat ≤ 2
  | .step => true
  | .armGroup => target ≠ 0#3
  | .cancelGroup => target ≠ 0#3
  | .mark => true
  | .measOpen => target.toNat ≤ 3
  | .measClose => target.toNat ≤ 3

/-- Whether the width of a PULSE is 1 to 65,535 (condition 4 of R12); other kinds do not have one. -/
def widthInRange (k : Kind) (operand : Tick) : Bool :=
  k ≠ .pulse || (1 ≤ operand.toNat && operand.toNat ≤ 65535)

/-- Whether a hold's offset is 1 to 2^23 (condition 8 of R12); without a hold every due is in range. -/
def holdInRange (h : HoldEdge) (due : Tick) : Bool :=
  h = .absent || (1 ≤ due.toNat && due.toNat ≤ Config.periodLimit)

/-- The captured record as the record to store, when none of the eight conditions of R12 refuses it. -/
def validRecord (d : Draft) : Option Record :=
  match d.kind, d.timebase with
  | some k, some t =>
    if targetInRange k d.target && widthInRange k d.operand && decide (d.period.toNat ≤ Config.periodLimit)
        && !(d.repeatCount ≠ 0#16 && d.period = 0#24) && !(k = .step && t = .step) && holdInRange d.holdEdge d.due then
      some { toFields := d.toFields, kind := some k, timebase := t }
    else none
  | _, _ => none

/-- WRITE_SLOT at its completion: BAD_STATE for an ARMED or HELD slot, BAD_FIELD for a record that R12 refuses, else the
record is stored and the slot is STAGED with its run fields 0 (R11, R13). -/
def writeSlotWork (rec : CommandRecord) (captured : Draft) (s : State) : State :=
  let i := argumentSlot rec.argument
  if isCancellable (s.slot i) then finishCommand rec .badState rec.argument s
  else
    match validRecord captured with
    | none => finishCommand rec .badField rec.argument s
    | some r => finishCommand rec .ok rec.argument (s.setSlot i ⟨.staged, r, 0#24, 0#16⟩)

/-- READ_SLOT at its completion: the slot goes into the ten staging words, in the view of bit 7 (R20, R21). -/
def readSlotWork (rec : CommandRecord) (s : State) : State :=
  finishCommand rec .ok rec.argument
    (s.setWindow { s.window with
      staging := slotWords (rec.argument.getLsbD 7) (s.slot (argumentSlot rec.argument)) })

/-- FREE_SLOT at its completion (R14). -/
def freeSlotWork (rec : CommandRecord) (s : State) : State :=
  let i := argumentSlot rec.argument
  match (s.slot i).state with
  | .armed => finishCommand rec .badState rec.argument s
  | .held => finishCommand rec .badState rec.argument s
  | .free => finishCommand rec .ok rec.argument s
  | .staged => finishCommand rec .ok rec.argument (s.setSlot i Slot.empty)
  | .spent => finishCommand rec .ok rec.argument (s.setSlot i Slot.empty)

/-! ### ARM, ARM_GROUP, CANCEL, CANCEL_GROUP -/

/-- The status ARM completes with, by what its step found (R52). -/
def armStatus : ArmOutcome → CommandStatus
  | .passed => .badState
  | .held => .ok
  | .armed => .ok
  | .refused => .late
  | .fired => .ok

/-- ARM at its completion: the arm step on the named slot (R52). -/
def armWork (rec : CommandRecord) (s : State) : State :=
  let i := argumentSlot rec.argument
  finishCommand rec (armStatus (armOutcome s i)) rec.argument (armStep .command hostFireNow i s)

/-- Whether an arm step takes its slot out of STAGED or SPENT, which ARM_GROUP counts (R54). -/
def armCounts : ArmOutcome → Bool
  | .passed => false
  | .held => true
  | .armed => true
  | .refused => false
  | .fired => true

/-- What the ARM_GROUP command finds at the step for a slot: a slot that is not an arming member is passed over (R53). -/
def groupStepOutcome (g : BitVec 3) (s : State) (i : SlotId) : ArmOutcome :=
  if isMember g (s.slot i) then armOutcome s i else .passed

/-- The work of the ARM_GROUP command's step for a slot (R53). -/
def groupStepWork (g : BitVec 3) (i : SlotId) (s : State) : State :=
  if isMember g (s.slot i) then armStep .groupCommand hostFireNow i s else s

/-- One step of ARM_GROUP; after the step for slot 31 the command completes OK with its count (R53, R54). -/
def armGroupWork (rec : CommandRecord) (next count : Nat) (s : State) : State :=
  if h : next < 32 then
    let i : SlotId := ⟨next, h⟩
    let g := argumentGroup rec.argument
    let count' := if armCounts (groupStepOutcome g s i) then count + 1 else count
    let s' := groupStepWork g i s
    if next + 1 < 32 then
      s'.setWindow { s'.window with engine := some ⟨.armGroup (next + 1) count', rec.argument⟩ }
    else finishCommand rec .ok (BitVec.ofNat 8 count') s'
  else finishCommand rec .ok (BitVec.ofNat 8 count) s

/-- CANCEL at its completion (R19). -/
def cancelWork (rec : CommandRecord) (s : State) : State :=
  let i := argumentSlot rec.argument
  if isCancellable (s.slot i) then finishCommand rec .ok rec.argument (cancelEntry i s)
  else finishCommand rec .badState rec.argument s

/-- CANCEL_GROUP at its completion: every ARMED or HELD member retires, and the count is reported (R60). -/
def cancelGroupWork (rec : CommandRecord) (s : State) : State :=
  let g := argumentGroup rec.argument
  finishCommand rec .ok (BitVec.ofNat 8 (cancelCount g s)) (cancelMembers g s)

/-! ### LOAD_TB, MEAS_START, MEAS_STOP, FLUSH_REPORTS, RELEASE_LINES -/

/-- The value of the operand registers as they stand (R37, R196). -/
def operandValue (s : State) : Tick := s.window.operandHi ++ s.window.operandLo

/-- LOAD_TB at its completion: the load, with its notices (R37). -/
def loadTbWork (rec : CommandRecord) (s : State) : State :=
  match timebaseOfNat rec.argument.toNat with
  | none => finishCommand rec .badField rec.argument s
  | some t => finishCommand rec .ok rec.argument (loadTimebase t (operandValue s) s)

/-- MEAS_START at its completion (R127). -/
def measStartWork (rec : CommandRecord) (s : State) : State :=
  let c := argumentChannel rec.argument
  if (s.channel c).state = .off then finishCommand rec .ok rec.argument (openChannel c s)
  else finishCommand rec .badState rec.argument s

/-- MEAS_STOP at its completion (R128). -/
def measStopWork (rec : CommandRecord) (s : State) : State :=
  let c := argumentChannel rec.argument
  if (s.channel c).state = .off then finishCommand rec .badState rec.argument s
  else finishCommand rec .ok rec.argument (closeChannel c s)

/-- FLUSH_REPORTS at its completion: the queue is empty and the lost count 0 (R162). -/
def flushReportsWork (rec : CommandRecord) (s : State) : State :=
  finishCommand rec .ok rec.argument (s.setQueue { s.queue with records := [], lost := 0 })

/-- RELEASE_LINES at its completion, by the SAFE state then held (R106). -/
def releaseLinesWork (rec : CommandRecord) (s : State) : State :=
  match s.inputs.safe with
  | .active => finishCommand rec .badState rec.argument s
  | .run => finishCommand rec .ok rec.argument s
  | .cleared =>
    finishCommand rec .ok rec.argument (releaseHolds (s.setInputs { s.inputs with safe := .run }))

/-! ### ENGINE_RESET -/

/-- The SAFE state an ENGINE_RESET leaves (R123). -/
def safeAfterReset (inp : InputUnit) : SafeState :=
  if inp.safeN = .low then .active
  else
    match inp.safe with
    | .cleared => .cleared
    | .run => .run
    | .active => .run

/-- The timebase unit at ENGINE_RESET: values, enables, phase and snapshots go, the prescaler code and the selections stay
(R42). -/
def engineResetTb (u : TimebaseUnit) : TimebaseUnit :=
  { u with
    values := ⟨0#24, 0#24, 0#24⟩
    enables := ⟨false, false, false⟩
    snapshots := ⟨0#16, 0#16, 0#16⟩
    phase := 0 }

/-- Step 1 of the completion of ENGINE_RESET: every block takes its reset values (R192). -/
def engineReset (s : State) : State :=
  let safe := safeAfterReset s.inputs
  { s with
    tb := engineResetTb s.tb
    sched := Scheduler.initial
    notices := ⟨none, none⟩
    lines := mapItems (engineResetLine safe) s.lines
    inputs := { s.inputs with safe := safe }
    meas := { s.meas with channels := mapItems engineResetChannel s.meas.channels }
    queue := { s.queue with records := [], lost := 0 }
    notify := notifyEngineReset s.notify }

/-- ENGINE_RESET at its completion; CMD_DONE is raised after the flags are cleared (R181, R192). -/
def engineResetWork (rec : CommandRecord) (s : State) : State :=
  finishCommand rec .ok rec.argument (engineReset s)

/-! ### The next step of the command in progress -/

/-- Takes the next step, or the completion, of a command record (R188). -/
def commandWork (rec : CommandRecord) (s : State) : State :=
  match rec.job with
  | .writeSlot captured => writeSlotWork rec captured s
  | .readSlot => readSlotWork rec s
  | .freeSlot => freeSlotWork rec s
  | .arm => armWork rec s
  | .armGroup next count => armGroupWork rec next count s
  | .cancel => cancelWork rec s
  | .cancelGroup => cancelGroupWork rec s
  | .loadTb => loadTbWork rec s
  | .measStart => measStartWork rec s
  | .measStop => measStopWork rec s
  | .flushReports => flushReportsWork rec s
  | .releaseLines => releaseLinesWork rec s
  | .engineReset => engineResetWork rec s

/-- Takes the next step or the completion of the command in progress when it is a given command; that event does not occur
otherwise, and nothing changes (log 1). -/
def workIf (c : CommandCode) (s : State) : State :=
  match s.window.engine with
  | none => s
  | some rec => if jobCode rec.job = c then commandWork rec s else s

end Sys2Proof.Machine
end

