-- ==== Sys2Proof/Machine/Access.lean ====
section
/-!
DEFINITION. The register window (10.1, 10.4, 10.5): the word each of the 32 registers reads, the side effects of the four
reads that have one, and the effect of a write at each address.
-/
namespace Sys2Proof.Machine

/-! ### The configuration table -/

/-- The word a configuration item reads (R198). -/
def cfgItemWord (item : CfgItem) (s : State) : Word :=
  match item with
  | .enables => enablesWord s.tb.enables
  | .prescaler => 0#8 ++ s.tb.prescaler
  | .selections => selectionsWord s.tb.countSelection s.tb.clearSelection
  | .line n => lineConfigWord (s.line n)
  | .setup c => setupWord (s.channelItems c).setup
  | .timeoutHi c => 0#8 ++ (s.channelItems c).timeoutHi
  | .timeoutLo c => (s.channelItems c).timeoutLo
  | .status c => channelStatusWord (s.channel c)
  | .levelsLow => levelsLowWord s.notify.settings
  | .levelsHigh => levelsHighWord s.notify.settings
  | .threshold => BitVec.ofNat 16 s.queue.threshold

/-- A write of item 0x00: the three enables at once. Setting the TB0 enable restarts the prescaler phase, and clearing it
interrupts every interval (R29, R31, R137). -/
def writeEnables (w : Word) (s : State) : State :=
  let old := s.tb.enables.clock
  let new := enablesOfWord w
  let s' := s.setTb { s.tb with
    enables := new
    phase := if new.clock && !old then 0 else s.tb.phase }
  if old && !new.clock then interruptIntervals s' else s'

/-- A write of item 0x01: the prescaler code, and the phase returns to 0 (R30, R31). -/
def writePrescaler (w : Word) (s : State) : State :=
  s.setTb { s.tb with prescaler := w.extractLsb' 0 8, phase := 0 }

/-- A write of item 0x02: both EDGE selections (R32). -/
def writeSelections (w : Word) (s : State) : State :=
  s.setTb { s.tb with
    clearSelection := selectionOfCode (w.extractLsb' 8 5)
    countSelection := selectionOfCode (w.extractLsb' 0 5) }

/-- A write of item 0x1C+c: LIMIT is cleared when its bit is written 1 (R144). -/
def writeChannelStatus (c : Fin 4) (w : Word) (s : State) : State :=
  s.setChannel c { s.channel c with limit := (s.channel c).limit && !(w.getLsbD 4) }

/-- A write handed to the owner of a configuration item (R197). -/
def writeCfgItem (item : CfgItem) (w : Word) (s : State) : State :=
  match item with
  | .enables => writeEnables w s
  | .prescaler => writePrescaler w s
  | .selections => writeSelections w s
  | .line n => writeLineConfig n w s
  | .setup c => s.setChannelItems c { s.channelItems c with setup := setupOfWord w }
  | .timeoutHi c => s.setChannelItems c { s.channelItems c with timeoutHi := w.extractLsb' 0 8 }
  | .timeoutLo c => s.setChannelItems c { s.channelItems c with timeoutLo := w }
  | .status c => writeChannelStatus c w s
  | .levelsLow => s.setNotify (notifyWriteLow w s.notify)
  | .levelsHigh => s.setNotify (notifyWriteHigh w s.notify)
  | .threshold => s.setQueue { s.queue with threshold := thresholdOfWord w }

/-- An access to CFG_DATA while CFG_INDEX names no item (R197, R178). -/
def raiseBadIndex (s : State) : State := raiseFault (fun f => { f with badIndex := true }) s

/-- A write to CFG_DATA: to the item that CFG_INDEX names, or discarded with BAD_INDEX (R197). -/
def cfgDataWrite (w : Word) (s : State) : State :=
  match cfgItemOfIndex s.window.cfgIndex with
  | none => raiseBadIndex s
  | some item => writeCfgItem item w s

/-- The word a read of CFG_DATA returns (R197). -/
def cfgDataWord (s : State) : Word :=
  match cfgItemOfIndex s.window.cfgIndex with
  | none => 0#16
  | some item => cfgItemWord item s

/-! ### Reads -/

/-- STATUS (R185, R200). -/
def statusWord (s : State) : Word :=
  bit s.window.engine.isSome ++ safeStateCode s.inputs.safe ++ bit (irqAsserted s.notify)
    ++ bit (decide (queueWords s.queue ≠ 0)) ++ 0#5 ++ BitVec.ofNat 6 (freeSlots s)

/-- TBn_HI: value bits 23-16 (R39). -/
def tbHiWord (t : Timebase) (s : State) : Word := 0#8 ++ (s.tbValue t).extractLsb' 16 8

/-- The word that the register at an address has in a state, all 32 of them (R183, R200). -/
def settledWord (a : BitVec 5) (s : State) : Word :=
  match a.toNat with
  | 0x00 => Config.idWord
  | 0x01 => statusWord s
  | 0x02 => s.window.command
  | 0x03 => resultWord s.window.result
  | 0x0E => tbHiWord .clock s
  | 0x0F => s.tb.snapshots.clock
  | 0x10 => tbHiWord .edge s
  | 0x11 => s.tb.snapshots.edge
  | 0x12 => tbHiWord .step s
  | 0x13 => s.tb.snapshots.step
  | 0x14 => 0#8 ++ s.window.operandHi
  | 0x15 => s.window.operandLo
  | 0x16 => 0#8 ++ s.window.cfgIndex
  | 0x17 => cfgDataWord s
  | 0x18 => lineForceWord s.lines
  | 0x19 => lineLevelsWord fun n => pinLevel (s.line n)
  | 0x1A => lineLevelsWord fun n => (s.line n).scheduled
  | 0x1B => oldestWord s.queue.records
  | 0x1C => reportCountWord (queueRecords s.queue) (queueWords s.queue)
  | 0x1D => claimWord s.notify
  | 0x1E => notifyPendingWord s.notify.flags
  | 0x1F => faultWord s.notify.faults
  | a' => s.window.staging.getD (a' - 0x04) 0#16

/-- The word a read of the register at an address returns (R202): what the last whole taking left, and never what an arrival
passes through while its work is being taken (R94, R107). -/
def registerWord (a : BitVec 5) (s : State) : Word := settledWord a (settle s)

/-- What a read of TBn_HI does: value bits 15-0 go into the snapshot of the timebase (R39). -/
def takeSnapshot (t : Timebase) (s : State) : State :=
  s.setTb { s.tb with snapshots := s.tb.snapshots.set t ((s.tbValue t).extractLsb' 0 16) }

/-- What a read of REPORT_DATA does: one word leaves the queue, if it holds one (R157, R158). -/
def popReport (s : State) : State := s.setQueue { s.queue with records := popWord s.queue.records }

/-- What a read of CFG_DATA does: nothing at an item, BAD_INDEX elsewhere (R197). -/
def readCfgData (s : State) : State :=
  match cfgItemOfIndex s.window.cfgIndex with
  | none => raiseBadIndex s
  | some _ => s

/-- The side effect of a read at an address; every other read has none (R183). -/
def readEffect (a : BitVec 5) (s : State) : State :=
  match a.toNat with
  | 0x0E => takeSnapshot .clock s
  | 0x10 => takeSnapshot .edge s
  | 0x12 => takeSnapshot .step s
  | 0x17 => readCfgData s
  | 0x1B => popReport s
  | 0x1D => s.setNotify (notifyClaim s.notify)
  | _ => s

/-- A read access: the register's word goes on D15 to D0 as it stands at the read, and the side effect is taken at the
same moment (R182, R202). -/
def windowRead (a : BitVec 5) (s : State) : State := readEffect a (s.setReadWord (registerWord a s))

/-- The address of TBn_HI (R183). -/
def tbHiAddress : Timebase → BitVec 5
  | .clock => 0x0E#5
  | .edge => 0x10#5
  | .step => 0x12#5

/-! ### Writes -/

/-- Whether a READ_SLOT is in flight, from its acceptance to its completion (R194). -/
def readSlotInFlight (s : State) : Bool :=
  match s.window.engine with
  | none => false
  | some rec => decide (rec.job = .readSlot)

/-- A write of a staging word: stored, or discarded with STAGE_CONFLICT while a READ_SLOT is in flight (R193, R194). -/
def stageWrite (k : Fin 10) (w : Word) (s : State) : State :=
  if readSlotInFlight s then raiseFault (fun f => { f with stageConflict := true }) s
  else s.setWindow { s.window with staging := s.window.staging.set k w }

/-- A write of FAULT: the bits written 1 are cleared, and no pending flag changes (R179). -/
def writeFault (w : Word) (s : State) : State :=
  s.setNotify { s.notify with faults := faultAfterWrite w s.notify.faults }

/-- A write of NOTIFY_CLAIM: a complete (R174). -/
def completeNotice (s : State) : State := s.setNotify (notifyComplete s.notify)

/-- A write access at an address (R184): the registers that discard every write leave the part as it was. -/
def windowWrite (a : BitVec 5) (w : Word) (s : State) : State :=
  match a.toNat with
  | 0x02 => commandWrite w s
  | 0x14 => s.setWindow { s.window with operandHi := w.extractLsb' 0 8 }
  | 0x15 => s.setWindow { s.window with operandLo := w }
  | 0x16 => s.setWindow { s.window with cfgIndex := w.extractLsb' 0 8 }
  | 0x17 => cfgDataWrite w s
  | 0x18 => writeForce w s
  | 0x1D => completeNotice s
  | 0x1F => writeFault w s
  | a' => if h : 0x04 ≤ a' ∧ a' ≤ 0x0D then stageWrite ⟨a' - 0x04, by omega⟩ w s else s

end Sys2Proof.Machine
end

