-- ==== Sys2Proof/Machine/Completions.lean ====
section
/-!
DEFINITION. The meanings of the rows that are a step or the completion of the host command in progress (R188). Each takes
that event when its own command is in progress; with another command, or none, in progress the event does not occur, and
nothing changes (log 1).
-/
namespace Sys2Proof.Machine

/-- WRITE_SLOT_COMPLETION (R11, R13). -/
def execWriteSlotCompletion (s : State) : Host.Outcome State Fault Refusal := taken (workIf .writeSlot) s

/-- READ_SLOT_COMPLETION (R20, R21). -/
def execReadSlotCompletion (s : State) : Host.Outcome State Fault Refusal := taken (workIf .readSlot) s

/-- FREE_SLOT_COMPLETION (R14). -/
def execFreeSlotCompletion (s : State) : Host.Outcome State Fault Refusal := taken (workIf .freeSlot) s

/-- ARM_COMPLETION (R52). -/
def execArmCompletion (s : State) : Host.Outcome State Fault Refusal := taken (workIf .arm) s

/-- ARM_GROUP_STEP (R53, R54). -/
def execArmGroupStep (s : State) : Host.Outcome State Fault Refusal := taken (workIf .armGroup) s

/-- CANCEL_COMPLETION (R19). -/
def execCancelCompletion (s : State) : Host.Outcome State Fault Refusal := taken (workIf .cancel) s

/-- CANCEL_GROUP_COMPLETION (R60). -/
def execCancelGroupCompletion (s : State) : Host.Outcome State Fault Refusal := taken (workIf .cancelGroup) s

/-- LOAD_TB_COMPLETION (R37). -/
def execLoadTbCompletion (s : State) : Host.Outcome State Fault Refusal := taken (workIf .loadTb) s

/-- MEAS_START_COMPLETION (R127). -/
def execMeasStartCompletion (s : State) : Host.Outcome State Fault Refusal := taken (workIf .measStart) s

/-- MEAS_STOP_COMPLETION (R128). -/
def execMeasStopCompletion (s : State) : Host.Outcome State Fault Refusal := taken (workIf .measStop) s

/-- FLUSH_REPORTS_COMPLETION (R162). -/
def execFlushReportsCompletion (s : State) : Host.Outcome State Fault Refusal := taken (workIf .flushReports) s

/-- RELEASE_LINES_COMPLETION (R106). -/
def execReleaseLinesCompletion (s : State) : Host.Outcome State Fault Refusal := taken (workIf .releaseLines) s

/-- ENGINE_RESET_COMPLETION (R192). -/
def execEngineResetCompletion (s : State) : Host.Outcome State Fault Refusal := taken (workIf .engineReset) s

end Sys2Proof.Machine
end

