-- ==== Sys2Proof/Machine/Inputs.lean ====
section
/-!
DEFINITION. The input unit (chapter 6): edges and their dispatch in three steps, the claims that may come between the
steps, and the SAFE state.
-/
namespace Sys2Proof.Machine

/-! ### Edges -/

/-- The edge of a change to a level (R110). -/
def edgeTo : Level → Edge
  | .high => .rise
  | .low => .fall

/-- Whether an edge is of a selected kind; both matches either (R33). -/
def kindMatches : EdgeKind → Edge → Bool
  | .rise, e => e == .rise
  | .fall, e => e == .fall
  | .both, _ => true

/-- Whether an edge matches a selection: on, its line, its kind (R33). -/
def selectionMatches (sel : EdgeSelection) (line : Fin 4) (e : Edge) : Bool :=
  sel.on && decide (sel.line = line) && kindMatches sel.kind e

/-- The first step of an edge's dispatch: a clear loads TB1 with 0 and is not counted; otherwise a count is an arrival of
TB1 with its batch, if TB1 is enabled (R33, R111). -/
def edgeTimebase (line : Fin 4) (e : Edge) (s : State) : State :=
  if selectionMatches s.tb.clearSelection line e then loadTimebase .edge 0#24 s
  else if selectionMatches s.tb.countSelection line e && s.tb.enables.edge then wholeArrival stepRequest .edge s
  else s

/-! ### Claims between the steps of one dispatch (R112) -/

/-- The next step of the command in progress, between two steps of a dispatch. ENGINE_RESET and RELEASE_LINES complete
before or after a whole dispatch and are not taken here (R112, R119, R192). -/
def commandStepInside (s : State) : State :=
  match s.window.engine with
  | none => s
  | some rec =>
    match rec.job with
    | .engineReset => s
    | .releaseLines => s
    | .writeSlot _ => commandWork rec s
    | .readSlot => commandWork rec s
    | .freeSlot => commandWork rec s
    | .arm => commandWork rec s
    | .armGroup _ _ => commandWork rec s
    | .cancel => commandWork rec s
    | .cancelGroup => commandWork rec s
    | .loadTb => commandWork rec s
    | .measStart => commandWork rec s
    | .measStop => commandWork rec s
    | .flushReports => commandWork rec s

/-- One claim taken whole between two steps of a dispatch (R112). -/
def takeClaim (c : Claim) (s : State) : State :=
  match c with
  | .clkPeriod stallFirst =>
    if stallFirst then settle (takeStallNotice (clockPeriod s)) else settle (clockPeriod s)
  | .commandStep => commandStepInside s
  | .hostWrite a w => windowWrite a w s
  | .hostRead a => windowRead a s

/-- The claims taken between two steps, in order. -/
def takeClaims (cs : List Claim) (s : State) : State := cs.foldl (fun s c => takeClaim c s) s

/-- The dispatch of one edge: the EDGE timebase, the held set, the channels, each step finished before the next, with the
claims taken between them (R111, R112). -/
def dispatchEdge (line : Fin 4) (e : Edge) (beforeRelease beforeChannels : List Claim) (s : State) : State :=
  channelsEdge line e (takeClaims beforeChannels (releaseHeld line e (takeClaims beforeRelease (edgeTimebase line e s))))

/-- The last level of an input line (R110). -/
def lastLevel (s : State) (line : Fin 4) : Level := s.inputs.last[line]

/-- Records the level seen on an input line (R110). -/
def setLastLevel (line : Fin 4) (level : Level) (s : State) : State :=
  s.setInputs { s.inputs with last := s.inputs.last.set line level }

/-- A level seen on an input line: with no change there is no edge; a change is an edge, which is dispatched unless SAFE is
ACTIVE (R110, R113). -/
def inputSeen (line : Fin 4) (level : Level) (beforeRelease beforeChannels : List Claim) (s : State) : State :=
  if lastLevel s line = level then s
  else if s.inputs.safe = .active then setLastLevel line level s
  else dispatchEdge line (edgeTo level) beforeRelease beforeChannels (setLastLevel line level s)

/-! ### The SAFE state -/

/-- Entry into ACTIVE: the holds are set, intervals are interrupted and SAFE is raised (R115, R116). -/
def enterActive (s : State) : State :=
  raiseSource .safe (interruptIntervals (holdLines (s.setInputs { s.inputs with safe := .active })))

/-- SAFE_N seen low: an assertion when the last level seen was high; it takes RUN and CLEARED to ACTIVE (R114, R115). -/
def safeAsserted (s : State) : State :=
  if s.inputs.safeN = .low then s
  else
    let s' := s.setInputs { s.inputs with safeN := .low }
    match s.inputs.safe with
    | .run => enterActive s'
    | .cleared => enterActive s'
    | .active => s'

/-- SAFE_N seen high: a release when the last level seen was low; it takes ACTIVE to CLEARED (R114, R117). -/
def safeReleased (s : State) : State :=
  if s.inputs.safeN = .high then s
  else
    match s.inputs.safe with
    | .active => s.setInputs { s.inputs with safeN := .high, safe := .cleared }
    | .run => s.setInputs { s.inputs with safeN := .high }
    | .cleared => s.setInputs { s.inputs with safeN := .high }

end Sys2Proof.Machine
end

