-- ==== Sys2Proof/Machine/Events.lean ====
section
/-!
DEFINITION. The meanings of the rows that no host access makes: power-on reset, input and SAFE_N edges, CLK periods and TB0
arrivals, and the work of an arrival that its recipients take.
-/
namespace Sys2Proof.Machine

/-- POWER_ON_RESET (R23 and every block's power-on rule): every item of state at its power-on value. The queue of commands
is not the part's, and stays. -/
def execPowerOnReset (ins : Vector Level 4) (safeN : Level) (s : State) : Host.Outcome State Fault Refusal :=
  .next { State.powerOn ins safeN with pending := s.pending }

/-- INPUT_EDGE (R110 to R113). -/
def execInputEdge (line : Fin 4) (level : Level) (beforeRelease beforeChannels : List Claim) (s : State) :
    Host.Outcome State Fault Refusal :=
  taken (inputSeen line level beforeRelease beforeChannels) s

/-- SAFE_ASSERTION (R115). -/
def execSafeAssertion (s : State) : Host.Outcome State Fault Refusal := taken safeAsserted s

/-- SAFE_RELEASE (R117). -/
def execSafeRelease (s : State) : Host.Outcome State Fault Refusal := taken safeReleased s

/-- CLK_PERIOD (R30). A period that completes the phase takes the arrival (log 3). -/
def execClkPeriod (s : State) : Host.Outcome State Fault Refusal := taken clockPeriod s

/-- TB0_ARRIVAL (R25, R30): the rest of the current advance passes and the phase completes (log 2). -/
def execTb0Arrival (s : State) : Host.Outcome State Fault Refusal := taken completePhase s

/-- BATCH_FIRE (R67 to R70, R87): the batch of the arrival taken fires, with its deferred operations; with no batch
record held there is nothing to fire (log 4). -/
def execBatchFire (s : State) : Host.Outcome State Fault Refusal :=
  .next (if s.sched.batches.isEmpty then s else takeBatchNotice s)

/-- PULSE_END (R99): the line unit ends the pulses that the arrival taken has reached (log 4). -/
def execPulseEnd (s : State) : Host.Outcome State Fault Refusal := .next (takeLineNotice s)

/-- STALL (R134): the measurement unit makes the stall checks of the arrival taken (log 4). -/
def execStall (s : State) : Host.Outcome State Fault Refusal := .next (takeStallNotice s)

end Sys2Proof.Machine
end

