-- ==== Sys2Proof/Machine/HostAccesses.lean ====
section
/-!
DEFINITION. The meanings of the rows that are one host access of the window other than a write to COMMAND (R182): the
reads that change state, the window writes, and the CFG_DATA accesses. A CFG_DATA access goes to the item that CFG_INDEX
names at that moment (R197; log 11).
-/
namespace Sys2Proof.Machine

/-! ### Reads -/

/-- TB_HI_READ (R39). -/
def execTbHiRead (t : Timebase) (s : State) : Host.Outcome State Fault Refusal :=
  taken (windowRead (tbHiAddress t)) s

/-- REPORT_DATA_READ (R157, R158). -/
def execReportDataRead (s : State) : Host.Outcome State Fault Refusal := taken (windowRead 0x1B#5) s

/-- CLAIM (R171, R172). -/
def execClaim (s : State) : Host.Outcome State Fault Refusal := taken (windowRead 0x1D#5) s

/-! ### Writes -/

/-- COMPLETE (R174, R175); the data is not read. -/
def execComplete (data : Word) (s : State) : Host.Outcome State Fault Refusal := taken (windowWrite 0x1D#5 data) s

/-- STAGE_WRITE (R193, R194). -/
def execStageWrite (index : Fin 10) (data : Word) (s : State) : Host.Outcome State Fault Refusal :=
  taken (stageWrite index data) s

/-- LINE_FORCE_WRITE (R104). -/
def execLineForceWrite (data : Word) (s : State) : Host.Outcome State Fault Refusal := taken (windowWrite 0x18#5 data) s

/-- FAULT_WRITE (R179). -/
def execFaultWrite (data : Word) (s : State) : Host.Outcome State Fault Refusal := taken (windowWrite 0x1F#5 data) s

/-- WINDOW_WRITE (R184): the write of a register at an address. -/
def execWindowWrite (address : BitVec 5) (data : Word) (s : State) : Host.Outcome State Fault Refusal :=
  taken (windowWrite address data) s

/-! ### CFG_DATA accesses -/

/-- TIMEBASE_ENABLES_WRITE (R29): the CFG_DATA write made while CFG_INDEX names item 0x00. -/
def execTimebaseEnablesWrite (data : Word) (s : State) : Host.Outcome State Fault Refusal :=
  taken (windowWrite 0x17#5 data) s

/-- PRESCALER_WRITE (R31): the CFG_DATA write made while CFG_INDEX names item 0x01. -/
def execPrescalerWrite (data : Word) (s : State) : Host.Outcome State Fault Refusal :=
  taken (windowWrite 0x17#5 data) s

/-- EDGE_SELECTIONS_WRITE (R32): the CFG_DATA write made while CFG_INDEX names item 0x02. -/
def execEdgeSelectionsWrite (data : Word) (s : State) : Host.Outcome State Fault Refusal :=
  taken (windowWrite 0x17#5 data) s

/-- LINE_CONFIGURATION_WRITE (R95): the CFG_DATA write made while CFG_INDEX names item 0x08+n. -/
def execLineConfigurationWrite (data : Word) (s : State) : Host.Outcome State Fault Refusal :=
  taken (windowWrite 0x17#5 data) s

/-- CHANNEL_CONFIGURATION_WRITE (R125): the CFG_DATA write made while CFG_INDEX names item 0x10+c, 0x14+c or 0x18+c. -/
def execChannelConfigurationWrite (data : Word) (s : State) : Host.Outcome State Fault Refusal :=
  taken (windowWrite 0x17#5 data) s

/-- CHANNEL_STATUS_WRITE (R144): the CFG_DATA write made while CFG_INDEX names item 0x1C+c. -/
def execChannelStatusWrite (data : Word) (s : State) : Host.Outcome State Fault Refusal :=
  taken (windowWrite 0x17#5 data) s

/-- NOTIFICATION_LEVELS_WRITE (R166): the CFG_DATA write made while CFG_INDEX names item 0x20 or 0x21. -/
def execNotificationLevelsWrite (data : Word) (s : State) : Host.Outcome State Fault Refusal :=
  taken (windowWrite 0x17#5 data) s

/-- REPORT_THRESHOLD_WRITE (R156): the CFG_DATA write made while CFG_INDEX names item 0x22. -/
def execReportThresholdWrite (data : Word) (s : State) : Host.Outcome State Fault Refusal :=
  taken (windowWrite 0x17#5 data) s

/-- One access to CFG_DATA (R197). -/
def cfgAccess : CfgAccess → State → State
  | .read => windowRead 0x17#5
  | .write w => windowWrite 0x17#5 w

/-- BAD_INDEX (R197): the CFG_DATA access made while CFG_INDEX names no item. -/
def execBadIndex (access : CfgAccess) (s : State) : Host.Outcome State Fault Refusal := taken (cfgAccess access) s

end Sys2Proof.Machine
end

