-- ==== Sys2Proof/Machine/HostCommands.lean ====
section
/-!
DEFINITION. The meanings of the rows that are a write of a command word: the thirteen host commands at their acceptance,
and the words refused at acceptance or discarded. Each is one write to COMMAND, which the engine takes by R187: discarded
with CMD_OVERRUN while BUSY, refused with an argument out of range, accepted otherwise.
-/
namespace Sys2Proof.Machine

/-- WRITE_SLOT (R11, R187). -/
def execWriteSlot (argument : Byte) (s : State) : Host.Outcome State Fault Refusal :=
  taken (commandWrite (commandWord .writeSlot argument)) s

/-- READ_SLOT (R20, R187, R194). -/
def execReadSlot (argument : Byte) (s : State) : Host.Outcome State Fault Refusal :=
  taken (commandWrite (commandWord .readSlot argument)) s

/-- FREE_SLOT (R14, R187). -/
def execFreeSlot (argument : Byte) (s : State) : Host.Outcome State Fault Refusal :=
  taken (commandWrite (commandWord .freeSlot argument)) s

/-- ARM (R52, R187). -/
def execArm (argument : Byte) (s : State) : Host.Outcome State Fault Refusal :=
  taken (commandWrite (commandWord .arm argument)) s

/-- ARM_GROUP (R53, R187). -/
def execArmGroup (argument : Byte) (s : State) : Host.Outcome State Fault Refusal :=
  taken (commandWrite (commandWord .armGroup argument)) s

/-- CANCEL (R19, R187). -/
def execCancel (argument : Byte) (s : State) : Host.Outcome State Fault Refusal :=
  taken (commandWrite (commandWord .cancel argument)) s

/-- CANCEL_GROUP (R60, R187). -/
def execCancelGroup (argument : Byte) (s : State) : Host.Outcome State Fault Refusal :=
  taken (commandWrite (commandWord .cancelGroup argument)) s

/-- LOAD_TB (R37, R187). -/
def execLoadTb (argument : Byte) (s : State) : Host.Outcome State Fault Refusal :=
  taken (commandWrite (commandWord .loadTb argument)) s

/-- MEAS_START (R127, R187). -/
def execMeasStart (argument : Byte) (s : State) : Host.Outcome State Fault Refusal :=
  taken (commandWrite (commandWord .measStart argument)) s

/-- MEAS_STOP (R128, R187). -/
def execMeasStop (argument : Byte) (s : State) : Host.Outcome State Fault Refusal :=
  taken (commandWrite (commandWord .measStop argument)) s

/-- FLUSH_REPORTS (R162, R187). -/
def execFlushReports (argument : Byte) (s : State) : Host.Outcome State Fault Refusal :=
  taken (commandWrite (commandWord .flushReports argument)) s

/-- RELEASE_LINES (R106, R187). -/
def execReleaseLines (argument : Byte) (s : State) : Host.Outcome State Fault Refusal :=
  taken (commandWrite (commandWord .releaseLines argument)) s

/-- ENGINE_RESET (R192, R187). -/
def execEngineReset (argument : Byte) (s : State) : Host.Outcome State Fault Refusal :=
  taken (commandWrite (commandWord .engineReset argument)) s

/-- BAD_COMMAND (R187): a word with non-zero upper bits or an unknown code. -/
def execBadCommand (data : Word) (s : State) : Host.Outcome State Fault Refusal :=
  taken (commandWrite data) s

/-- ARGUMENT_OUT_OF_RANGE (R187): a known code with an argument out of range. -/
def execArgumentOutOfRange (data : Word) (s : State) : Host.Outcome State Fault Refusal :=
  taken (commandWrite data) s

/-- COMMAND_WRITE_IN_BUSY (R187): a word written while the engine is BUSY. -/
def execCommandWriteInBusy (data : Word) (s : State) : Host.Outcome State Fault Refusal :=
  taken (commandWrite data) s

end Sys2Proof.Machine
end

