-- ==== Sys2Proof/Machine/Dispatch.lean ====
section
/-! DEFINITION. The meaning of every command: one arm per row of spec/opcode_table.json, each one direct call. -/
namespace Sys2Proof.Machine

def exec (i : Instr) (s : State) : Host.Outcome State Fault Refusal :=
  match i with
  | .powerOnReset ins safeN => Sys2Proof.Machine.execPowerOnReset ins safeN s
  | .writeSlot argument => Sys2Proof.Machine.execWriteSlot argument s
  | .writeSlotCompletion => Sys2Proof.Machine.execWriteSlotCompletion s
  | .readSlot argument => Sys2Proof.Machine.execReadSlot argument s
  | .readSlotCompletion => Sys2Proof.Machine.execReadSlotCompletion s
  | .freeSlot argument => Sys2Proof.Machine.execFreeSlot argument s
  | .freeSlotCompletion => Sys2Proof.Machine.execFreeSlotCompletion s
  | .arm argument => Sys2Proof.Machine.execArm argument s
  | .armCompletion => Sys2Proof.Machine.execArmCompletion s
  | .armGroup argument => Sys2Proof.Machine.execArmGroup argument s
  | .armGroupStep => Sys2Proof.Machine.execArmGroupStep s
  | .cancel argument => Sys2Proof.Machine.execCancel argument s
  | .cancelCompletion => Sys2Proof.Machine.execCancelCompletion s
  | .cancelGroup argument => Sys2Proof.Machine.execCancelGroup argument s
  | .cancelGroupCompletion => Sys2Proof.Machine.execCancelGroupCompletion s
  | .loadTb argument => Sys2Proof.Machine.execLoadTb argument s
  | .loadTbCompletion => Sys2Proof.Machine.execLoadTbCompletion s
  | .measStart argument => Sys2Proof.Machine.execMeasStart argument s
  | .measStartCompletion => Sys2Proof.Machine.execMeasStartCompletion s
  | .measStop argument => Sys2Proof.Machine.execMeasStop argument s
  | .measStopCompletion => Sys2Proof.Machine.execMeasStopCompletion s
  | .flushReports argument => Sys2Proof.Machine.execFlushReports argument s
  | .flushReportsCompletion => Sys2Proof.Machine.execFlushReportsCompletion s
  | .releaseLines argument => Sys2Proof.Machine.execReleaseLines argument s
  | .releaseLinesCompletion => Sys2Proof.Machine.execReleaseLinesCompletion s
  | .engineReset argument => Sys2Proof.Machine.execEngineReset argument s
  | .engineResetCompletion => Sys2Proof.Machine.execEngineResetCompletion s
  | .badCommand data => Sys2Proof.Machine.execBadCommand data s
  | .tbHiRead t => Sys2Proof.Machine.execTbHiRead t s
  | .reportDataRead => Sys2Proof.Machine.execReportDataRead s
  | .claim => Sys2Proof.Machine.execClaim s
  | .complete data => Sys2Proof.Machine.execComplete data s
  | .stageWrite index data => Sys2Proof.Machine.execStageWrite index data s
  | .lineForceWrite data => Sys2Proof.Machine.execLineForceWrite data s
  | .faultWrite data => Sys2Proof.Machine.execFaultWrite data s
  | .timebaseEnablesWrite data => Sys2Proof.Machine.execTimebaseEnablesWrite data s
  | .prescalerWrite data => Sys2Proof.Machine.execPrescalerWrite data s
  | .edgeSelectionsWrite data => Sys2Proof.Machine.execEdgeSelectionsWrite data s
  | .lineConfigurationWrite data => Sys2Proof.Machine.execLineConfigurationWrite data s
  | .channelConfigurationWrite data => Sys2Proof.Machine.execChannelConfigurationWrite data s
  | .channelStatusWrite data => Sys2Proof.Machine.execChannelStatusWrite data s
  | .notificationLevelsWrite data => Sys2Proof.Machine.execNotificationLevelsWrite data s
  | .reportThresholdWrite data => Sys2Proof.Machine.execReportThresholdWrite data s
  | .badIndex access => Sys2Proof.Machine.execBadIndex access s
  | .windowWrite address data => Sys2Proof.Machine.execWindowWrite address data s
  | .inputEdge line level beforeRelease beforeChannels => Sys2Proof.Machine.execInputEdge line level beforeRelease beforeChannels s
  | .safeAssertion => Sys2Proof.Machine.execSafeAssertion s
  | .safeRelease => Sys2Proof.Machine.execSafeRelease s
  | .tb0Arrival => Sys2Proof.Machine.execTb0Arrival s
  | .batchFire => Sys2Proof.Machine.execBatchFire s
  | .pulseEnd => Sys2Proof.Machine.execPulseEnd s
  | .stall => Sys2Proof.Machine.execStall s
  | .clkPeriod => Sys2Proof.Machine.execClkPeriod s
  | .commandWriteInBusy data => Sys2Proof.Machine.execCommandWriteInBusy data s
  | .argumentOutOfRange data => Sys2Proof.Machine.execArgumentOutOfRange data s

end Sys2Proof.Machine
end

