-- ==== Sys2Proof/Safety.lean ====
section
/-!
DEFINITION. What the statements call a sound state, block by block: the invariants the manual gives the part, and when no
work of an arrival is left over. A run is safe when every state of it meets them: no command ends in a fault.
-/
namespace Sys2Proof.Safety

open Sys2Proof.Machine

/-- No work of a TB0 arrival is left to do: no batch record is held and no notice waits (log 4). -/
abbrev Settled (s : State) : Prop := s.sched.batches = [] ∧ s.notices = ⟨none, none⟩

/-- The engine is IDLE (R186). -/
abbrev Idle (s : State) : Prop := s.window.engine = none

/-- The levels on the claim stack followed by the current level are strictly increasing, and the lowest of them all is
OPEN; so the stack is empty exactly when the current level is OPEN (R169). -/
abbrev ClaimStackSound (n : NotifyUnit) : Prop :=
  (n.current :: n.stack).Pairwise (fun a b => handlingRank b < handlingRank a) ∧
    (n.current :: n.stack).getLast? = some .openLevel

/-- While a source is disabled its flag stays clear (R167). -/
abbrev DisabledFlagsClear (n : NotifyUnit) : Prop :=
  ∀ src ∈ allSources, sourceLevel n src = none → sourcePending n src = false

/-- The queue holds at most 128 unread words, every record in it has one, only the head may be partly read, and the lost
count, the gap counts and the threshold keep their ranges (R147, R148, R152, R156). -/
abbrev QueueSound (q : ReportQueue) : Prop :=
  queueWords q ≤ 128 ∧ (∀ r ∈ q.records, unreadWords r ≠ [] ∧ r.gap ≤ 65535) ∧
    (∀ r ∈ q.records.tail, r.read = 0) ∧ q.lost ≤ 65535 ∧ 1 ≤ q.threshold ∧ q.threshold ≤ 16

/-- The SAFE state follows SAFE_N, and the safe holds are set on every line in ACTIVE and CLEARED and clear in RUN
(R114). -/
abbrev SafeStateSound (s : State) : Prop :=
  (s.inputs.safe = .active ↔ s.inputs.safeN = .low) ∧
    ∀ n : Fin 8, (s.line n).safeHold = decide (s.inputs.safe ≠ .run)

/-- The prescaler phase lies in 0 to P - 1 (R30). -/
abbrev PhaseSound (u : TimebaseUnit) : Prop := u.phase < prescalerPeriods u.prescaler

/-- A channel's window: the count below 2^k, the sum at most count times the largest sample, min at most max once there is
a sample, and all of them 0 while there is none (R124, R133). -/
abbrev WindowSound (ch : Channel) : Prop :=
  ch.count < 2 ^ ch.latched.setup.windowExponent.val ∧ ch.sum ≤ ch.count * 16777215 ∧ ch.max ≤ 16777215 ∧
    (1 ≤ ch.count → ch.min ≤ ch.max) ∧ (ch.count = 0 → ch.sum = 0 ∧ ch.min = 0 ∧ ch.max = 0)

/-- No channel is TIMING while TB0 is disabled or SAFE is ACTIVE (R136, R137). -/
abbrev NoIntervalWhileStopped (s : State) : Prop :=
  clockCounts s = false → ∀ c : Fin 4, (s.channel c).state ≠ .timing

/-- What each slot state says of the record and the run fields (R2, R9, R10): FREE is all zero, STAGED has no run fields,
HELD has next due 0 and a hold, and no entry of the STEP timebase has kind STEP (R12). -/
abbrev SlotSound (sl : Slot) : Prop :=
  (sl.state = .free → sl = Slot.empty) ∧
  (sl.state = .staged → sl.nextDue = 0#24 ∧ sl.remaining = 0#16) ∧
  (sl.state = .held → sl.nextDue = 0#24 ∧ sl.record.holdEdge ≠ .absent) ∧
  ¬(sl.record.kind = some .step ∧ sl.record.timebase = .step)

/-- The three timebases. -/
def allTimebases : List Timebase := [.clock, .edge, .step]

/-- One due list: each entry once, ARMED, of this timebase, not being fired, in order of non-decreasing distance from the
current value (R2, R43). -/
abbrev DueListSound (s : State) (t : Timebase) : Prop :=
  (s.dueList t).Nodup ∧
  (∀ i ∈ s.dueList t, (s.slot i).state = .armed ∧ (s.slot i).record.timebase = t ∧ beingFired s i = false) ∧
  (s.dueList t).Pairwise (fun i j => entryDistance s t i ≤ entryDistance s t j)

/-- Between commands the scheduler holds no batch record, or that of a TB0 arrival whose waiting entries are ARMED, due on
its value, each once, and of which none has begun to fire (R68). -/
abbrev BatchSound (s : State) : Prop :=
  s.sched.batches = [] ∨
  ∃ b ∈ s.sched.batches, s.sched.batches = [b] ∧ b.timebase = .clock ∧ b.value = s.tbValue .clock ∧ b.chain = [] ∧
    b.deferred = [] ∧ b.waiting.Nodup ∧
    ∀ i ∈ b.waiting, (s.slot i).state = .armed ∧ (s.slot i).record.timebase = .clock ∧ (s.slot i).nextDue = b.value

/-- A slot is ARMED exactly when it is in the due list of its timebase or is being fired, and the lists keep their order
(R2, R43, R68). -/
abbrev SchedulerSound (s : State) : Prop :=
  (∀ t ∈ allTimebases, DueListSound s t) ∧ BatchSound s ∧
  ∀ i : SlotId, (s.slot i).state = .armed → i ∈ s.dueList (s.slot i).record.timebase ∨ beingFired s i = true

/-- The command record holds what its command needs: a slot, group, timebase or channel in range, and ARM_GROUP's next
slot below 32 with a count no higher (R186). -/
abbrev EngineSound (w : Window) : Prop :=
  match w.engine with
  | none => True
  | some rec =>
    (jobCode rec.job).admits rec.argument = true ∧
      match rec.job with
      | .armGroup next count => next < 32 ∧ count ≤ next
      | _ => True

/-! ### The words the statements use -/

/-- A completion after the command's own work has left `s` (R188): COMMAND_RESULT is written, the engine is IDLE, and the
CMD_DONE flag is set unless its setting is DISABLED. -/
def afterCompletion (status : CommandStatus) (code : BitVec 4) (detail : Byte) (s : State) : State :=
  { s with
    window := { s.window with result := ⟨status, code, detail⟩, engine := none }
    notify :=
      if s.notify.settings[10] = .disabled then s.notify
      else { s.notify with flags := s.notify.flags.set 12 true } }

/-- The command that writes the command word of a code and an argument. -/
def hostCommand (c : CommandCode) (argument : Byte) : Instr :=
  match c with
  | .writeSlot => .writeSlot argument
  | .readSlot => .readSlot argument
  | .freeSlot => .freeSlot argument
  | .arm => .arm argument
  | .armGroup => .armGroup argument
  | .cancel => .cancel argument
  | .cancelGroup => .cancelGroup argument
  | .loadTb => .loadTb argument
  | .measStart => .measStart argument
  | .measStop => .measStop argument
  | .flushReports => .flushReports argument
  | .releaseLines => .releaseLines argument
  | .engineReset => .engineReset argument

/-- The argument range that the command table of 10.3 gives, as numbers. -/
def argumentInRange (c : CommandCode) (argument : Nat) : Prop :=
  match c with
  | .writeSlot => argument ≤ 31
  | .readSlot => argument % 128 ≤ 31
  | .freeSlot => argument ≤ 31
  | .arm => argument ≤ 31
  | .armGroup => 1 ≤ argument ∧ argument ≤ 7
  | .cancel => argument ≤ 31
  | .cancelGroup => 1 ≤ argument ∧ argument ≤ 7
  | .loadTb => argument ≤ 2
  | .measStart => argument ≤ 3
  | .measStop => argument ≤ 3
  | .flushReports => True
  | .releaseLines => True
  | .engineReset => True

/-- The eight conditions under which WRITE_SLOT refuses a captured record, in the order of R12. -/
def InvalidRecord (d : Draft) : Prop :=
  d.kind = none ∨
  d.timebase = none ∨
  ((d.kind = some .loadTb ∧ 2 < d.target.toNat) ∨ (d.kind = some .armGroup ∧ d.target = 0#3) ∨
    (d.kind = some .cancelGroup ∧ d.target = 0#3) ∨ (d.kind = some .measOpen ∧ 3 < d.target.toNat) ∨
    (d.kind = some .measClose ∧ 3 < d.target.toNat)) ∨
  (d.kind = some .pulse ∧ (d.operand = 0#24 ∨ 65535 < d.operand.toNat)) ∨
  8388608 < d.period.toNat ∨
  (d.repeatCount ≠ 0#16 ∧ d.period = 0#24) ∨
  (d.kind = some .step ∧ d.timebase = some .step) ∨
  (d.holdEdge ≠ .absent ∧ (d.due = 0#24 ∨ 8388608 < d.due.toNat))

/-- The number of a timebase (R24). -/
def timebaseNumber : Timebase → Nat
  | .clock => 0
  | .edge => 1
  | .step => 2

/-- The code of a host command (R199, and the table of 10.3). -/
def commandNumber : CommandCode → Nat
  | .writeSlot => 1
  | .readSlot => 2
  | .freeSlot => 3
  | .arm => 4
  | .armGroup => 5
  | .cancel => 6
  | .cancelGroup => 7
  | .loadTb => 8
  | .measStart => 9
  | .measStop => 10
  | .flushReports => 11
  | .releaseLines => 12
  | .engineReset => 13

/-- The code of a kind; 0 names none (R195). -/
def kindNumber : Option Kind → Nat
  | none => 0
  | some .set => 1
  | some .clear => 2
  | some .toggle => 3
  | some .pulse => 4
  | some .loadTb => 5
  | some .step => 6
  | some .armGroup => 7
  | some .cancelGroup => 8
  | some .mark => 9
  | some .measOpen => 10
  | some .measClose => 11

/-- The code of a hold edge (R195). -/
def holdEdgeNumber : HoldEdge → Nat
  | .absent => 0
  | .rise => 1
  | .fall => 2
  | .both => 3

/-- The code of a slot state (R195). -/
def slotStateNumber : SlotState → Nat
  | .free => 0
  | .staged => 1
  | .armed => 2
  | .held => 3
  | .spent => 4

/-- One EDGE selection as its five-bit field (R198): on, edge kind, input line. -/
def selectionNumber (sel : EdgeSelection) : Nat :=
  (if sel.on then 16 else 0)
    + 4 * (match sel.kind with
      | .rise => 0
      | .fall => 1
      | .both => 2)
    + sel.line.val

/-- A channel's set-up as the word of its item (R198). -/
def setupNumber (set : Setup) : Nat :=
  (if set.extremes then 16384 else 0)
    + 4096 * (match set.rounding with
      | .trunc => 0
      | .halfUp => 1
      | .halfEven => 2)
    + 256 * set.unitShift.val + 16 * set.windowExponent.val
    + 4 * (match set.mode with
      | .periodRise => 0
      | .periodFall => 1
      | .high => 2
      | .low => 3)
    + set.input.val

/-- The code of a level setting (R166, R198). -/
def settingNumber : NotifySetting → Nat
  | .disabled => 0
  | .level n => n.val + 1

/-- The ten staging words that a READ_SLOT writes, each as the number its fields of R195 make. -/
def stagingImage (run : Bool) (sl : Slot) : Vector Word 10 :=
  let r := sl.record
  let next := if run then sl.nextDue.toNat else 0
  #v[BitVec.ofNat 16 (kindNumber r.kind * 4096 + timebaseNumber r.timebase * 1024 + r.target.toNat * 128
        + r.group.toNat * 16 + (if r.latePolicy = .fireNow then 8 else 0) + (if r.skipPolicy = .drop then 4 else 0)
        + (if r.keep then 2 else 0) + (if r.report then 1 else 0)),
     BitVec.ofNat 16 (slotStateNumber sl.state * 8192 + (if r.notify then 4096 else 0)
        + holdEdgeNumber r.holdEdge * 1024 + r.holdLine.val * 256 + r.due.toNat / 65536),
     BitVec.ofNat 16 (r.due.toNat % 65536),
     BitVec.ofNat 16 (r.operand.toNat / 65536),
     BitVec.ofNat 16 (r.operand.toNat % 65536),
     BitVec.ofNat 16 (r.period.toNat / 65536),
     BitVec.ofNat 16 (r.period.toNat % 65536),
     if run then sl.remaining else r.repeatCount,
     BitVec.ofNat 16 (next / 65536),
     BitVec.ofNat 16 (next % 65536)]

/-- Where R43 puts an entry of distance `d` in a list ordered by distance: after every entry of equal or smaller distance,
before every entry of greater distance. -/
def placedAt (dist : SlotId → Nat) (d : Nat) (i : SlotId) (l : List SlotId) : List SlotId :=
  l.filter (fun j => decide (dist j ≤ d)) ++ i :: l.filter (fun j => decide (d < dist j))

/-- The report queue after a record has been handed to it (R151, R152): appended whole with the lost count as its gap, or
dropped whole and counted. -/
def queueAfter (q : ReportQueue) (r : Report) : ReportQueue :=
  if 1 + (reportContent r).length + (if q.lost = 0 then 0 else 1) + (q.records.flatMap unreadWords).length ≤ 128 then
    { q with records := q.records ++ [⟨r, q.lost, 0⟩], lost := 0 }
  else { q with lost := min (q.lost + 1) 65535 }

/-- The notification controller after a cause has reached a source (R167): its flag is set unless the source is disabled. -/
def caused (src : Source) (n : NotifyUnit) : NotifyUnit :=
  if sourceLevel n src = none then n else { n with flags := n.flags.set (sourceIndex src) true }

/-- The queue and the notification controller after a record has been handed (R151, R152, R155): an append raises REPORT when
the records then unread reach the threshold, and a drop raises LOST. -/
def handed (r : Report) (qn : ReportQueue × NotifyUnit) : ReportQueue × NotifyUnit :=
  let q := queueAfter qn.1 r
  (q,
    if 1 + (reportContent r).length + (if qn.1.lost = 0 then 0 else 1) + (qn.1.records.flatMap unreadWords).length ≤ 128 then
      if q.threshold ≤ (q.records.filter fun r => decide (unreadWords r ≠ [])).length then caused .report qn.2 else qn.2
    else caused .lost qn.2)

/-- What a load of timebase `tb` with value `v` makes of `s` (R35, R36): the value and nothing else of the unit; the entries
behind under DROP retire in list order with SKIPPED records, and the rest are sorted stably by their new distances (R46,
R62, R63); the pulses timed on `tb` end (R101); and for TB0 every interval in progress is discarded (R137). -/
def Loaded (tb : Timebase) (v : Tick) (s t : State) : Prop :=
  let dist : SlotId → Nat := fun i => distance (s.slot i).nextDue v
  let drops : SlotId → Bool := fun i => decide (8388608 < dist i ∧ (s.slot i).record.skipPolicy = .drop)
  let skipped := ((s.dueList tb).filter drops).foldl (fun qn i => handed (.skipped i tb) qn) (s.queue, s.notify)
  ∃ sched : Scheduler,
    t = { s with
      tb := { s.tb with values := s.tb.values.set tb v }
      sched := sched
      lines := s.lines.map fun l =>
        match l.pulse with
        | none => l
        | some p => if p.timebase = tb then { l with scheduled := inactiveLevel l, pulse := none } else l
      meas := { s.meas with channels := s.meas.channels.map fun ch =>
        if tb = .clock ∧ ch.state = .timing then { ch with state := .waitStart } else ch }
      queue := skipped.1
      notify := skipped.2 } ∧
    sched.batches = s.sched.batches ∧
    (∀ i : SlotId, sched.slots[i] =
      if i ∈ s.dueList tb ∧ drops i = true then
        (if (s.slot i).record.keep then { s.slot i with state := .spent } else Slot.empty)
      else s.slot i) ∧
    (∀ u, u ≠ tb → sched.lists.get u = s.dueList u) ∧
    (sched.lists.get tb).Perm ((s.dueList tb).filter fun i => !(drops i)) ∧
    (sched.lists.get tb).Pairwise (fun i j => dist i ≤ dist j) ∧
    ∀ d, (sched.lists.get tb).filter (fun i => decide (dist i = d)) =
      (s.dueList tb).filter (fun i => !(drops i) && decide (dist i = d))

/-- A timebase has taken an arrival, and its batch is still to fire (R25, R26, R67, R68, R99): the value is one higher, an
arrival onto 0 has raised the wrap source, the pulses that end at the value have ended, and the entries due on it have left
the list, in its order, for a new batch record. -/
def arrived (t : Timebase) (s : State) : State :=
  let v := s.tbValue t + 1#24
  { s with
    tb := { s.tb with values := s.tb.values.set t v }
    notify := if v = 0#24 then caused (.wrap t) s.notify else s.notify
    lines := s.lines.map fun l =>
      if l.pulse = some ⟨t, v⟩ then { l with scheduled := inactiveLevel l, pulse := none } else l
    sched := { s.sched with
      lists := s.sched.lists.set t ((s.dueList t).filter fun i => decide ((s.slot i).nextDue ≠ v))
      batches :=
        { timebase := t
          value := v
          waiting := (s.dueList t).filter fun i => decide ((s.slot i).nextDue = v)
          chain := []
          deferred := [] } :: s.sched.batches } }

/-- The rest of a fire once the entry's action has been taken and answered (R70, R77 to R84): the FIRED record, flagged by the
answer, then the ENTRY source, then the retirement, or the re-arm in which the entry joins its list. -/
def entryFired (i : SlotId) (v : Tick) (late : Bool) (answer : Answer) (s : State) : State :=
  let sl := s.slot i
  let last := decide (sl.record.period ≠ 0#24 ∧ sl.remaining = 1#16)
  let due := if late then sl.record.due else v
  let flags : FiredFlags := ⟨last, late, decide (answer = .cut), decide (answer = .absorbed)⟩
  let reported := if sl.record.report then handReport (.fired i sl.record.timebase due flags) s else s
  let notified := if sl.record.notify then raiseSource .entry reported else reported
  if sl.record.period = 0#24 ∨ sl.remaining = 1#16 then
    notified.setSlot i (if sl.record.keep then { sl with state := .spent, remaining := 0#16 } else Slot.empty)
  else
    joinList i (notified.setSlot i { sl with
      state := .armed
      nextDue := v + sl.record.period
      remaining := if sl.remaining = 0#16 then 0#16 else sl.remaining - 1#16 })

/-- One fire of a MARK entry of a batch: MARK acts on nothing (R77). -/
def markFired (v : Tick) (i : SlotId) (s : State) : State := entryFired i v false .nothing s

/-- The pass of an ARM_GROUP action made by an entry that fires: a late member fires at once inside the same batch, one level
deeper in a chain of at most 32 (R50, R51). -/
def passOfAFire : BitVec 3 → State → State := groupArmPass fun j w u => fire 31 j w true u

/-- A slot as its arm step leaves it (R9, R10, R47): its next due, and its remaining fires set to repeat. -/
def armedAs (st : SlotState) (nextDue : Tick) (sl : Slot) : Slot :=
  { sl with state := st, nextDue := nextDue, remaining := sl.record.repeatCount }

/-- What an ARM_GROUP action of group `g` does at its turn to slot `i` (R47, R48, R50, R51, R55): it takes the slot when it is
STAGED or SPENT, a member and not being fired; a slot it takes is held, joins its list, is refused with BY_ACTION, or fires at
once by `fireNow`, which is given the value it was judged against. -/
def actionArmed (fireNow : SlotId → Tick → State → State) (g : BitVec 3) (s : State) (i : SlotId) : State :=
  let sl := s.slot i
  let v := s.tbValue sl.record.timebase
  if g ≠ 0#3 ∧ (sl.state = .staged ∨ sl.state = .spent) ∧ sl.record.group = g ∧
      ∀ b ∈ s.sched.batches, i ∉ b.waiting ∧ i ∉ b.chain then
    if sl.record.holdEdge ≠ .absent then s.setSlot i (armedAs .held 0#24 sl)
    else if distance sl.record.due v ≤ 8388608 then joinList i (s.setSlot i (armedAs .armed sl.record.due sl))
    else
      match sl.record.latePolicy with
      | .refuse => handReport (.refused i sl.record.timebase true false) s
      | .fireNow => fireNow i v (s.setSlot i (armedAs .armed sl.record.due sl))
  else s

/-- A fire at once made by a host's arm step (R49, R90): a batch of one, on the entry's timebase, with its deferred operations
applied directly after the fire. -/
def firedAtOnce (i : SlotId) (s : State) : State :=
  let sl := s.slot i
  let t := sl.record.timebase
  let begun := (s.setSlot i (armedAs .armed sl.record.due sl)).setBatches (⟨t, s.tbValue t, [], [i], []⟩ :: s.sched.batches)
  let acted := fireAction passOfAFire sl.record (s.tbValue t) begun
  finishBatch stepRequest (leaveChain i (entryFired i (s.tbValue t) true acted.2 acted.1))

/-- The edge of a level seen (R110). -/
def edgeOf (level : Level) : Edge := if level = .high then .rise else .fall

/-- Whether a selection asks for the edge of a level seen on a line (R33). -/
def Selected (sel : EdgeSelection) (line : Fin 4) (level : Level) : Prop :=
  sel.on = true ∧ sel.line = line ∧
    (sel.kind = .both ∨ (sel.kind = .rise ∧ level = .high) ∨ (sel.kind = .fall ∧ level = .low))

/-- Whether an edge releases a slot: HELD on its line, for its kind (R58). -/
abbrev Released (line : Fin 4) (level : Level) (sl : Slot) : Prop :=
  sl.state = .held ∧ sl.record.holdLine = line ∧
    (sl.record.holdEdge = .both ∨ (sl.record.holdEdge = .rise ∧ level = .high) ∨
      (sl.record.holdEdge = .fall ∧ level = .low))

/-- What a level seen on its line makes of an open channel while TB0 holds `v` (R131, R132): the channel, and the MEAS record
of the window that its sample fills, if it fills one (R133). -/
def measured (c : Fin 4) (level : Level) (v : Tick) (ch : Channel) : Channel × Option Report :=
  let mode := ch.latched.setup.mode
  let starts := ((mode = .periodRise ∨ mode = .high) ∧ level = .high) ∨ ((mode = .periodFall ∨ mode = .low) ∧ level = .low)
  let ends := ((mode = .periodRise ∨ mode = .low) ∧ level = .high) ∨ ((mode = .periodFall ∨ mode = .high) ∧ level = .low)
  let period := mode = .periodRise ∨ mode = .periodFall
  let x := (v - ch.start).toNat
  let sampled : Channel := { ch with
    state := if period then .timing else .waitStart
    start := if period then v else ch.start
    count := ch.count + 1
    sum := ch.sum + x
    min := if ch.count = 0 then x else Nat.min ch.min x
    max := if ch.count = 0 then x else Nat.max ch.max x }
  if ch.state = .waitStart ∧ starts then ({ ch with state := .timing, start := v }, none)
  else if ch.state = .timing ∧ ends then
    if ch.count + 1 < 2 ^ ch.latched.setup.windowExponent.val then (sampled, none)
    else
      ({ sampled with count := 0, sum := 0, min := 0, max := 0, limit := ch.limit || windowLimited sampled },
        some (measReport c sampled))
  else (ch, none)

/-- A channel takes an edge at the third step of its dispatch (R111, R130, R143): it receives the edge when it is open on the
line and accepts it while TB0 is enabled, and a MEAS record comes with its source. -/
def channelMet (line : Fin 4) (level : Level) (s : State) (c : Fin 4) : State :=
  let ch := s.channel c
  if ch.state ≠ .off ∧ ch.latched.setup.input = line ∧ s.tb.enables.clock = true then
    let met := measured c level s.tb.values.clock ch
    match met.2 with
    | none => s.setChannel c met.1
    | some report => handReport report (raiseSource (.mc c) (s.setChannel c met.1))
  else s

/-- The command that is the next step, or the completion, of a host command in progress. -/
def completionRow (c : CommandCode) : Instr :=
  match c with
  | .writeSlot => .writeSlotCompletion
  | .readSlot => .readSlotCompletion
  | .freeSlot => .freeSlotCompletion
  | .arm => .armCompletion
  | .armGroup => .armGroupStep
  | .cancel => .cancelCompletion
  | .cancelGroup => .cancelGroupCompletion
  | .loadTb => .loadTbCompletion
  | .measStart => .measStartCompletion
  | .measStop => .measStopCompletion
  | .flushReports => .flushReportsCompletion
  | .releaseLines => .releaseLinesCompletion
  | .engineReset => .engineResetCompletion

end Sys2Proof.Safety
end

