-- ==== Sys2Proof/Certificates/Slice0/Obligations.lean ====
section
/-!
DEFINITION. The statements for the provers. Each command's statement is an equation of its next state, so that it gives the
command's frame as well; the words they use stand in Safety.lean.
-/
section

open Sys2Proof Sys2Proof.Machine Sys2Proof.Safety

/-! ### The machine -/

/-- The block takes the command at the front of its queue and runs it with the queue's rest. On an empty queue it idles,
which is the model's choice (log 10). -/
def Obligations.StepRunsTheFrontCommand : Prop :=
  ∀ (c : Instr) (s : State),
    step { s with pending := c :: s.pending } = exec c s ∧ (s.pending = [] → step s = .next s)

/-- Every command but power-on reset and the three that take the work of a TB0 arrival finds that work finished: it acts as
on the settled state, which the three reach when they are sent in the order PULSE_END, BATCH_FIRE, STALL. The order in which
a command finishes left-over work is the model's choice (log 4). -/
def Obligations.ArrivalWorkIsFinishedFirst : Prop :=
  ∀ (c : Instr) (s : State), (∀ ins safeN, c ≠ .powerOnReset ins safeN) → c ≠ .batchFire → c ≠ .pulseEnd → c ≠ .stall →
    exec c s = exec c (settle s) ∧ Settled (settle s) ∧
    ∃ a b, exec .pulseEnd s = .next a ∧ exec .batchFire a = .next b ∧ exec .stall b = .next (settle s)

/-- What no command changes: the queue of commands waiting. -/
def Obligations.CommandsLeaveTheQueueAlone : Prop :=
  ∀ (c : Instr) (s t : State), exec c s = .next t → t.pending = s.pending

/-! ### Resets -/

/-- POWER_ON_RESET sets every item of state to its power-on value, with the levels sampled on the five inputs. -/
def Obligations.PowerOnResetSetsEveryItem : Prop :=
  ∀ (ins : Vector Level 4) (safeN : Level) (s : State), ∃ w : Word,
    exec (.powerOnReset ins safeN) s = .next
      { pending := s.pending
        readWord := w
        tb :=
          { values := ⟨0#24, 0#24, 0#24⟩
            enables := ⟨false, false, false⟩
            snapshots := ⟨0#16, 0#16, 0#16⟩
            prescaler := 1#8
            phase := 0
            countSelection := { line := 0, kind := .rise, on := false }
            clearSelection := { line := 0, kind := .rise, on := false } }
        sched :=
          { slots := Vector.replicate 32
              { state := .free
                record :=
                  { kind := none, timebase := .clock, due := 0#24, target := 0#3, operand := 0#24, period := 0#24
                    repeatCount := 0#16, group := 0#3, holdEdge := .absent, holdLine := 0, latePolicy := .refuse
                    skipPolicy := .keep, keep := false, report := false, notify := false }
                nextDue := 0#24
                remaining := 0#16 }
            lists := ⟨[], [], []⟩
            batches := [] }
        notices := ⟨none, none⟩
        lines := Vector.replicate 8
          { polarity := .activeHigh, safeLevel := .low, pulsePolicy := .retrigger, scheduled := .low, pulse := none
            force := .released, safeHold := decide (safeN = .low) }
        inputs := { last := ins, safeN := safeN, safe := if safeN = .low then .active else .run }
        meas :=
          { items := Vector.replicate 4
              { setup := { input := 0, mode := .periodRise, windowExponent := 0, unitShift := 0, rounding := .trunc
                           extremes := false }
                timeoutHi := 0#8
                timeoutLo := 0#16 }
            channels := Vector.replicate 4
              { state := .off
                latched :=
                  { setup := { input := 0, mode := .periodRise, windowExponent := 0, unitShift := 0, rounding := .trunc
                               extremes := false }
                    timeout := 0#24 }
                start := 0#24, count := 0, sum := 0, min := 0, max := 0, limit := false } }
        queue := { records := [], lost := 0, threshold := 1 }
        notify :=
          { flags := Vector.replicate 13 false
            settings := Vector.replicate 11 .disabled
            current := .openLevel
            stack := []
            faults := ⟨false, false, false, false⟩ }
        window :=
          { engine := none
            command := 0#16
            result := ⟨.noResult, 0#4, 0#8⟩
            staging := Vector.replicate 10 0#16
            operandHi := 0#8
            operandLo := 0#16
            cfgIndex := 0#8 } }

/-- ENGINE_RESET at its completion: every block at its ENGINE_RESET value, the configuration, the window stores and the input
levels kept, then the result OK and CMD_DONE. That the channels keep their latched configuration is the model's reading
(log 16). -/
def Obligations.EngineResetCompletionResetsRunState : Prop :=
  ∀ (s : State) (a : Byte), Settled s → SafeStateSound s → s.window.engine = some ⟨.engineReset, a⟩ →
    exec .engineResetCompletion s = .next
      (afterCompletion .ok 0xD#4 a
        { s with
          tb := { s.tb with
            values := ⟨0#24, 0#24, 0#24⟩
            enables := ⟨false, false, false⟩
            snapshots := ⟨0#16, 0#16, 0#16⟩
            phase := 0 }
          sched := { slots := Vector.replicate 32 Slot.empty, lists := ⟨[], [], []⟩, batches := [] }
          lines := s.lines.map fun l =>
            { l with
              scheduled := l.safeLevel
              pulse := none
              force := .released
              safeHold := decide (s.inputs.safe ≠ .run) }
          meas := { s.meas with channels := s.meas.channels.map fun ch =>
            { ch with state := .off, start := 0#24, count := 0, sum := 0, min := 0, max := 0, limit := false } }
          queue := { s.queue with records := [], lost := 0 }
          notify := { s.notify with
            flags := Vector.replicate 13 false
            current := .openLevel
            stack := [] } })

/-! ### The command word: acceptance and refusal -/

/-- The command words and the thirteen commands with their arguments are the same thing: each code and argument has its word,
the code 0x1 to 0xD in bits 11 to 8 and the argument in bits 7 to 0; that word names them, and no other word names a command;
the admitted arguments are those of the table of 10.3. -/
def Obligations.CommandWordsReadBack : Prop :=
  (∀ (c : CommandCode) (a : Byte), (commandWord c a).toNat = 256 * commandNumber c + a.toNat ∧
    decodeCommand (commandWord c a) = some c ∧ commandArgument (commandWord c a) = a ∧
    (c.admits a = true ↔ argumentInRange c a.toNat)) ∧
  ∀ (w : Word) (c : CommandCode), decodeCommand w = some c → commandWord c (commandArgument w) = w

/-- An admitted host command written while the engine is IDLE, each of the thirteen rows WRITE_SLOT to ENGINE_RESET, is taken
into the command record, with the captured record for WRITE_SLOT and the first step for ARM_GROUP, and nothing else changes
but COMMAND. -/
def Obligations.AcceptedHostCommandGoesBusy : Prop :=
  ∀ (c : CommandCode) (a : Byte) (s : State), Settled s → Idle s → argumentInRange c a.toNat →
    ∃ job, jobCode job = c ∧ (c = .writeSlot → job = .writeSlot (captureRecord s.window.staging)) ∧
      (c = .armGroup → job = .armGroup 0 0) ∧
      exec (hostCommand c a) s = .next
        { s with window := { s.window with command := commandWord c a, engine := some ⟨job, a⟩ } }

/-- A word refused at acceptance completes at the write: BAD_COMMAND for a word that names no command, BAD_FIELD for an
argument out of range; COMMAND takes the word, and no block is reached. -/
def Obligations.RefusedWordCompletesAtTheWrite : Prop :=
  ∀ (w : Word) (s : State), Settled s → Idle s →
    (decodeCommand w = none →
      exec (.badCommand w) s = .next
        (afterCompletion .badCommand (w.extractLsb' 8 4) (w.extractLsb' 0 8)
          { s with window := { s.window with command := w } })) ∧
    (∀ c, decodeCommand w = some c → ¬ argumentInRange c (w.toNat % 256) →
      exec (.argumentOutOfRange w) s = .next
        (afterCompletion .badField (w.extractLsb' 8 4) (w.extractLsb' 0 8)
          { s with window := { s.window with command := w } }) ∧
      exec (hostCommand c (w.extractLsb' 0 8)) s = exec (.argumentOutOfRange w) s)

/-- A word written while BUSY changes nothing but the CMD_OVERRUN bit and the FAULT flag, whatever the word. -/
def Obligations.WordWrittenWhileBusyIsDiscarded : Prop :=
  ∀ (w : Word) (c : CommandCode) (a : Byte) (rec : CommandRecord) (s : State), Settled s → s.window.engine = some rec →
    exec (.commandWriteInBusy w) s = .next
      { s with notify := { s.notify with
          flags := s.notify.flags.set 0 true
          faults := { s.notify.faults with cmdOverrun := true } } } ∧
    exec (hostCommand c a) s = exec (.commandWriteInBusy w) s

/-! ### Completions on the action table -/

/-- WRITE_SLOT at its completion: BAD_STATE for an ARMED or HELD slot, then BAD_FIELD for a record that R12 refuses, else the
captured record is stored as it is, the slot is STAGED and its run fields are 0. -/
def Obligations.WriteSlotCompletionStoresOrRefuses : Prop :=
  ∀ (s : State) (d : Draft) (a : Byte) (i : SlotId), Settled s → s.window.engine = some ⟨.writeSlot d, a⟩ → a.toNat = i.val →
    ((s.slot i).state = .armed ∨ (s.slot i).state = .held →
      exec .writeSlotCompletion s = .next (afterCompletion .badState 0x1#4 a s)) ∧
    ((s.slot i).state ≠ .armed → (s.slot i).state ≠ .held → InvalidRecord d →
      exec .writeSlotCompletion s = .next (afterCompletion .badField 0x1#4 a s)) ∧
    ((s.slot i).state ≠ .armed → (s.slot i).state ≠ .held → ¬ InvalidRecord d →
      ∃ k t, d.kind = some k ∧ d.timebase = some t ∧
        exec .writeSlotCompletion s = .next
          (afterCompletion .ok 0x1#4 a
            (s.setSlot i
              { state := .staged
                record := { toFields := d.toFields, kind := some k, timebase := t }
                nextDue := 0#24
                remaining := 0#16 })))

/-- READ_SLOT at its completion writes the ten staging words from the slot, each the number that its fields make with their
codes in their places, in the view that bit 7 of the argument chooses, and changes no slot. -/
def Obligations.ReadSlotCompletionCopiesTheSlot : Prop :=
  ∀ (s : State) (a : Byte) (i : SlotId), Settled s → s.window.engine = some ⟨.readSlot, a⟩ → a.toNat % 128 = i.val →
    exec .readSlotCompletion s = .next
      (afterCompletion .ok 0x2#4 a
        { s with window := { s.window with staging := stagingImage (decide (128 ≤ a.toNat)) (s.slot i) } })

/-- The staging words hold a record whole: what READ_SLOT writes from a slot that holds a record is captured back as that
record, the run view with remaining fires in place of repeat; and STAGE8, STAGE9 and the slot-state bits are not read. -/
def Obligations.StagingWordsHoldTheRecord : Prop :=
  (∀ (sl : Slot) (k : Kind), sl.record.kind = some k →
    captureRecord (slotWords false sl) =
      { toFields := sl.record.toFields, kind := some k, timebase := some sl.record.timebase } ∧
    captureRecord (slotWords true sl) =
      { toFields := { sl.record.toFields with repeatCount := sl.remaining }, kind := some k
        timebase := some sl.record.timebase }) ∧
  ∀ (st : Vector Word 10) (w : Word) (x : BitVec 3),
    captureRecord (st.set 8 w) = captureRecord st ∧ captureRecord (st.set 9 w) = captureRecord st ∧
      captureRecord (st.set 1 (x ++ st[1].extractLsb' 0 13)) = captureRecord st

/-- FREE_SLOT and CANCEL at their completions, by the state the slot then has. A cancel retires the entry by its keep flag
and takes it out of the due list of its timebase. -/
def Obligations.FreeSlotAndCancelCompletions : Prop :=
  ∀ (s : State) (a : Byte) (i : SlotId), Settled s → a.toNat = i.val →
    (s.window.engine = some ⟨.freeSlot, a⟩ →
      ((s.slot i).state = .staged ∨ (s.slot i).state = .spent →
        exec .freeSlotCompletion s = .next (afterCompletion .ok 0x3#4 a (s.setSlot i Slot.empty))) ∧
      ((s.slot i).state = .free → exec .freeSlotCompletion s = .next (afterCompletion .ok 0x3#4 a s)) ∧
      ((s.slot i).state = .armed ∨ (s.slot i).state = .held →
        exec .freeSlotCompletion s = .next (afterCompletion .badState 0x3#4 a s))) ∧
    (s.window.engine = some ⟨.cancel, a⟩ →
      ((s.slot i).state = .armed ∨ (s.slot i).state = .held →
        exec .cancelCompletion s = .next
          (afterCompletion .ok 0x6#4 a
            ((s.setSlot i (if (s.slot i).record.keep then { s.slot i with state := .spent } else Slot.empty)).setDueList
              (s.slot i).record.timebase ((s.dueList (s.slot i).record.timebase).filter (· ≠ i))))) ∧
      ((s.slot i).state ≠ .armed → (s.slot i).state ≠ .held →
        exec .cancelCompletion s = .next (afterCompletion .badState 0x6#4 a s)))

/-- CANCEL_GROUP at its completion retires every ARMED or HELD member of the group, takes each out of its due list, reports
their number, and changes nothing else. -/
def Obligations.CancelGroupCompletionRetiresMembers : Prop :=
  ∀ (s : State) (a : Byte) (g : BitVec 3), Settled s → s.window.engine = some ⟨.cancelGroup, a⟩ → a.toNat = g.toNat →
    g ≠ 0#3 →
    let taken : SlotId → Bool := fun i =>
      decide (((s.slot i).state = .armed ∨ (s.slot i).state = .held) ∧ (s.slot i).record.group = g)
    ∃ t, exec .cancelGroupCompletion s =
        .next (afterCompletion .ok 0x7#4 (BitVec.ofNat 8 ((List.finRange 32).filter taken).length) (s.setSched t)) ∧
      t.batches = [] ∧
      (∀ i : SlotId, t.slots[i] =
        if taken i then (if (s.slot i).record.keep then { s.slot i with state := .spent } else Slot.empty) else s.slot i) ∧
      ∀ tb, t.lists.get tb =
        (s.dueList tb).filter fun i => !(taken i && decide ((s.slot i).record.timebase = tb))

/-! ### Arming -/

/-- ARM at its completion, for a slot that cannot be armed, that has a hold, that is ahead, and that is behind under REFUSE.
An entry that is ahead joins its list after every entry of equal or smaller distance. -/
def Obligations.ArmCompletionByWhatItFinds : Prop :=
  ∀ (s : State) (a : Byte) (i : SlotId), Settled s → SchedulerSound s → s.window.engine = some ⟨.arm, a⟩ →
    a.toNat = i.val →
    let sl := s.slot i
    let t := sl.record.timebase
    let d := distance sl.record.due (s.tbValue t)
    (sl.state ≠ .staged → sl.state ≠ .spent → exec .armCompletion s = .next (afterCompletion .badState 0x4#4 a s)) ∧
    (sl.state = .staged ∨ sl.state = .spent →
      (sl.record.holdEdge ≠ .absent →
        exec .armCompletion s = .next
          (afterCompletion .ok 0x4#4 a
            (s.setSlot i { sl with state := .held, nextDue := 0#24, remaining := sl.record.repeatCount }))) ∧
      (sl.record.holdEdge = .absent → d ≤ 8388608 →
        exec .armCompletion s = .next
          (afterCompletion .ok 0x4#4 a
            ((s.setSlot i { sl with
                state := .armed, nextDue := sl.record.due, remaining := sl.record.repeatCount }).setDueList t
              (placedAt (fun j => distance (s.slot j).nextDue (s.tbValue t)) d i (s.dueList t))))) ∧
      (sl.record.holdEdge = .absent → 8388608 < d → sl.record.latePolicy = .refuse →
        exec .armCompletion s = .next
          (afterCompletion .late 0x4#4 a (handReport (.refused i t false false) s))))

/-- ARM of an entry of any kind that is behind under FIRE_NOW: it fires at once as a batch of one, with LATE and its written
due, its deferred operations applied before the command completes. A MARK entry then retires, or re-arms a period after the
value it was judged against, behind every entry of that distance. -/
def Obligations.LateArmFiresAtOnce : Prop :=
  ∀ (s : State) (a : Byte) (i : SlotId), Settled s → SchedulerSound s → s.window.engine = some ⟨.arm, a⟩ →
    a.toNat = i.val →
    let sl := s.slot i
    let t := sl.record.timebase
    let v := s.tbValue t
    let last := decide (sl.record.period ≠ 0#24 ∧ sl.record.repeatCount = 1#16)
    let reported :=
      if sl.record.report then handReport (.fired i t sl.record.due ⟨last, true, false, false⟩) s else s
    let notified := if sl.record.notify then raiseSource .entry reported else reported
    (sl.state = .staged ∨ sl.state = .spent) → sl.record.holdEdge = .absent → 8388608 < distance sl.record.due v →
      sl.record.latePolicy = .fireNow →
      exec .armCompletion s = .next (afterCompletion .ok 0x4#4 a (firedAtOnce i s)) ∧
      (sl.record.kind = some .mark → sl.record.period = 0#24 ∨ sl.record.repeatCount = 1#16 →
        exec .armCompletion s = .next
          (afterCompletion .ok 0x4#4 a
            (notified.setSlot i
              (if sl.record.keep then
                { sl with state := .spent, nextDue := sl.record.due, remaining := 0#16 }
              else Slot.empty)))) ∧
      (sl.record.kind = some .mark → sl.record.period.toNat ≤ 8388608 → sl.record.period ≠ 0#24 →
        sl.record.repeatCount ≠ 1#16 →
        exec .armCompletion s = .next
          (afterCompletion .ok 0x4#4 a
            ((notified.setSlot i { sl with
                state := .armed
                nextDue := v + sl.record.period
                remaining := if sl.record.repeatCount = 0#16 then 0#16 else sl.record.repeatCount - 1#16 }).setDueList t
              (placedAt (fun j => distance (s.slot j).nextDue v) sl.record.period.toNat i (s.dueList t)))))

/-- One step of ARM_GROUP: a slot that is no arming member is passed over, a member is held, joins its list, is
refused with BY_GROUP or fires at once as a batch of one; the step for slot 31 completes the command with its count. -/
def Obligations.ArmGroupStepTakesOneSlot : Prop :=
  ∀ (s : State) (a : Byte) (i : SlotId) (count : Nat), Settled s → SchedulerSound s →
    s.window.engine = some ⟨.armGroup i.val count, a⟩ → 1 ≤ a.toNat → a.toNat ≤ 7 →
    let sl := s.slot i
    let t := sl.record.timebase
    let d := distance sl.record.due (s.tbValue t)
    let goOn : Nat → State → State := fun n u =>
      if i.val = 31 then afterCompletion .ok 0x5#4 (BitVec.ofNat 8 n) u
      else u.setWindow { s.window with engine := some ⟨.armGroup (i.val + 1) n, a⟩ }
    (¬ ((sl.state = .staged ∨ sl.state = .spent) ∧ sl.record.group.toNat = a.toNat) →
      exec .armGroupStep s = .next (goOn count s)) ∧
    ((sl.state = .staged ∨ sl.state = .spent) → sl.record.group.toNat = a.toNat →
      (sl.record.holdEdge ≠ .absent →
        exec .armGroupStep s = .next (goOn (count + 1)
          (s.setSlot i { sl with state := .held, nextDue := 0#24, remaining := sl.record.repeatCount }))) ∧
      (sl.record.holdEdge = .absent → d ≤ 8388608 →
        exec .armGroupStep s = .next (goOn (count + 1)
          ((s.setSlot i { sl with
              state := .armed, nextDue := sl.record.due, remaining := sl.record.repeatCount }).setDueList t
            (placedAt (fun j => distance (s.slot j).nextDue (s.tbValue t)) d i (s.dueList t))))) ∧
      (sl.record.holdEdge = .absent → 8388608 < d → sl.record.latePolicy = .refuse →
        exec .armGroupStep s = .next (goOn count (handReport (.refused i t false true) s))) ∧
      (sl.record.holdEdge = .absent → 8388608 < d → sl.record.latePolicy = .fireNow →
        exec .armGroupStep s = .next (goOn (count + 1) (firedAtOnce i s))))

/-! ### The other completions -/

/-- LOAD_TB at its completion loads the timebase with the operand registers' value. A load, whoever makes it, sets the value
and nothing else of the unit; the entries it leaves behind under DROP retire in list order with SKIPPED records, and REPORT
and LOST are raised as those records are appended or dropped; the rest are sorted stably by their new distances; every pulse
timed on it ends; for TB0, every interval in progress is discarded; and nothing else changes but CMD_DONE and the result. -/
def Obligations.LoadTbCompletionLoadsWithItsNotices : Prop :=
  (∀ (tb : Timebase) (v : Tick) (s : State), Loaded tb v s (loadTimebase tb v s)) ∧
  ∀ (s : State) (a : Byte) (tb : Timebase), Settled s → s.window.engine = some ⟨.loadTb, a⟩ → a.toNat = timebaseNumber tb →
    exec .loadTbCompletion s = .next
      (afterCompletion .ok 0x8#4 a (loadTimebase tb (s.window.operandHi ++ s.window.operandLo) s))

/-- MEAS_START opens a channel that is OFF and latches its items; MEAS_STOP closes one that is not, with a CLOSED record of
its window count. Each gives BAD_STATE otherwise. -/
def Obligations.MeasCommandCompletions : Prop :=
  ∀ (s : State) (a : Byte) (c : Fin 4), Settled s → a.toNat = c.val →
    let ch := s.channel c
    let items := s.channelItems c
    (s.window.engine = some ⟨.measStart, a⟩ →
      (ch.state = .off →
        exec .measStartCompletion s = .next
          (afterCompletion .ok 0x9#4 a
            (s.setChannel c
              { state := .waitStart
                latched := { setup := items.setup, timeout := items.timeoutHi ++ items.timeoutLo }
                start := ch.start, count := 0, sum := 0, min := 0, max := 0, limit := ch.limit }))) ∧
      (ch.state ≠ .off → exec .measStartCompletion s = .next (afterCompletion .badState 0x9#4 a s))) ∧
    (s.window.engine = some ⟨.measStop, a⟩ →
      (ch.state ≠ .off →
        exec .measStopCompletion s = .next
          (afterCompletion .ok 0xA#4 a
            (handReport (.closed c (BitVec.ofNat 16 ch.count))
              (raiseSource (.mc c)
                (s.setChannel c { ch with state := .off, count := 0, sum := 0, min := 0, max := 0 }))))) ∧
      (ch.state = .off → exec .measStopCompletion s = .next (afterCompletion .badState 0xA#4 a s)))

/-- FLUSH_REPORTS at its completion empties the queue and its lost count, and leaves the threshold and every flag but
CMD_DONE. RELEASE_LINES at its completion acts on the SAFE state then held: in CLEARED it clears every hold and goes to RUN,
in ACTIVE it gives BAD_STATE, in RUN it does nothing. -/
def Obligations.FlushAndReleaseCompletions : Prop :=
  ∀ (s : State) (a : Byte), Settled s →
    (s.window.engine = some ⟨.flushReports, a⟩ →
      exec .flushReportsCompletion s = .next
        (afterCompletion .ok 0xB#4 a { s with queue := { records := [], lost := 0, threshold := s.queue.threshold } })) ∧
    (s.window.engine = some ⟨.releaseLines, a⟩ →
      (s.inputs.safe = .cleared →
        exec .releaseLinesCompletion s = .next
          (afterCompletion .ok 0xC#4 a
            { s with
              inputs := { s.inputs with safe := .run }
              lines := s.lines.map fun l => { l with safeHold := false } })) ∧
      (s.inputs.safe = .active → exec .releaseLinesCompletion s = .next (afterCompletion .badState 0xC#4 a s)) ∧
      (s.inputs.safe = .run → exec .releaseLinesCompletion s = .next (afterCompletion .ok 0xC#4 a s)))

/-! ### Reads -/

/-- A read of TBn_HI gives value bits 23 to 16 and copies bits 15 to 0 into the snapshot of that timebase alone; a read of
TBn_LO gives the snapshot and changes nothing; writes to either change nothing. -/
def Obligations.TimebaseReadTakesASnapshot : Prop :=
  ∀ (t : Timebase) (s : State), Settled s →
    let hi : BitVec 5 := BitVec.ofNat 5 (14 + 2 * timebaseNumber t)
    let lo : BitVec 5 := BitVec.ofNat 5 (15 + 2 * timebaseNumber t)
    exec (.tbHiRead t) s = .next
      { s with
        readWord := BitVec.ofNat 16 ((s.tbValue t).toNat / 65536)
        tb := { s.tb with snapshots := s.tb.snapshots.set t (BitVec.ofNat 16 ((s.tbValue t).toNat % 65536)) } } ∧
    windowRead lo s = { s with readWord := s.tb.snapshots.get t } ∧
    ∀ w, exec (.windowWrite hi w) s = .next s ∧ exec (.windowWrite lo w) s = .next s

/-- A read of REPORT_DATA returns the oldest unread word and removes it, and its record with its last word; from an empty
queue it returns 0x0000 and changes nothing. So reads return the unread words of the queue in order, one at a time. -/
def Obligations.ReportDataReadPopsOneWord : Prop :=
  ∀ (s : State), Settled s → QueueSound s.queue →
    (∀ q rest w ws, s.queue.records = q :: rest → unreadWords q = w :: ws →
      exec .reportDataRead s = .next
        { s with
          readWord := w
          queue := { s.queue with
            records := if ws = [] then rest else { q with read := q.read + 1 } :: rest } }) ∧
    (s.queue.records = [] → exec .reportDataRead s = .next { s with readWord := 0#16 }) ∧
    ∀ t, exec .reportDataRead s = .next t →
      t.readWord = (s.queue.records.flatMap unreadWords).headD 0#16 ∧
      t.queue.records.flatMap unreadWords = (s.queue.records.flatMap unreadWords).tail ∧
      queueWords t.queue = queueWords s.queue - 1

/-- A claim selects the eligible source of highest level and then of lowest number, returns its number, clears its flag,
pushes the current level and raises it; with nothing eligible it returns 0 and changes nothing. -/
def Obligations.ClaimTakesTheBestSource : Prop :=
  ∀ (s : State), Settled s →
    ((∀ src, sourceEligible s.notify src = false) → exec .claim s = .next { s with readWord := 0#16 }) ∧
    ∀ src, sourceEligible s.notify src = true →
      ∃ best level, sourceEligible s.notify best = true ∧ sourceLevel s.notify best = some level ∧
        (∀ other otherLevel, sourceEligible s.notify other = true → sourceLevel s.notify other = some otherLevel →
          otherLevel < level ∨ (otherLevel = level ∧ sourceNumber best ≤ sourceNumber other)) ∧
        exec .claim s = .next
          { s with
            readWord := BitVec.ofNat 16 (sourceNumber best)
            notify := { s.notify with
              flags := s.notify.flags.set (sourceIndex best) false
              stack := s.notify.current :: s.notify.stack
              current := .level level } }

/-! ### Window writes -/

/-- A complete pops the claim stack into the current level and touches no flag. On an empty stack it is an underflow: the
current level stays OPEN, COMPLETE_UNDERFLOW and FAULT are set, and IRQ_N is asserted. The data written is not read. -/
def Obligations.CompletePopsOrUnderflows : Prop :=
  ∀ (w : Word) (s : State), Settled s → ClaimStackSound s.notify →
    (∀ top rest, s.notify.stack = top :: rest →
      exec (.complete w) s = .next { s with notify := { s.notify with current := top, stack := rest } }) ∧
    (s.notify.stack = [] →
      s.notify.current = .openLevel ∧
      exec (.complete w) s = .next
        { s with notify := { s.notify with
            flags := s.notify.flags.set 0 true
            faults := { s.notify.faults with completeUnderflow := true } } } ∧
      ∀ t, exec (.complete w) s = .next t → sourceEligible t.notify .fault = true ∧ irqAsserted t.notify = true)

/-- A staging write stores the word whole, except while a READ_SLOT is in flight: then it is discarded, and STAGE_CONFLICT and
FAULT are set. -/
def Obligations.StageWriteStoresOrConflicts : Prop :=
  ∀ (k : Fin 10) (w : Word) (s : State), Settled s →
    ((∀ a, s.window.engine ≠ some ⟨.readSlot, a⟩) →
      exec (.stageWrite k w) s = .next { s with window := { s.window with staging := s.window.staging.set k w } }) ∧
    (∀ a, s.window.engine = some ⟨.readSlot, a⟩ →
      exec (.stageWrite k w) s = .next
        { s with notify := { s.notify with
            flags := s.notify.flags.set 0 true
            faults := { s.notify.faults with stageConflict := true } } })

/-- A write of LINE_FORCE sets the force of each line from its two bits, code 3 keeping it, in any state of the engine and of
SAFE, and changes nothing else; the register reads the forces back; and the pins follow. -/
def Obligations.LineForceWriteSetsForces : Prop :=
  ∀ (w : Word) (s : State), Settled s →
    ∃ v : Vector Line 8, exec (.lineForceWrite w) s = .next { s with lines := v } ∧
      (∀ n : Fin 8, v[n] = { s.line n with
        force :=
          match w.toNat / 4 ^ n.val % 4 with
          | 0 => .released
          | 1 => .low
          | 2 => .high
          | _ => (s.line n).force }) ∧
      (∀ n : Fin 8, (registerWord 0x18#5 s).toNat / 4 ^ n.val % 4 =
        match (s.line n).force with
        | .released => 0
        | .low => 1
        | .high => 2) ∧
      readEffect 0x18#5 s = s ∧
      ∀ n : Fin 8, pinLevel v[n] =
        if (s.line n).safeHold then (s.line n).safeLevel
        else
          match v[n].force with
          | .released => (s.line n).scheduled
          | .low => .low
          | .high => .high

/-- A write of FAULT clears the bits written 1 and leaves the others, sets none and clears no pending flag; a read returns
the four bits and has no side effect. -/
def Obligations.FaultWriteClearsBits : Prop :=
  ∀ (w : Word) (s : State), Settled s →
    exec (.faultWrite w) s = .next
      { s with notify := { s.notify with
          faults :=
            { cmdOverrun := s.notify.faults.cmdOverrun && !w.getLsbD 0
              stageConflict := s.notify.faults.stageConflict && !w.getLsbD 1
              badIndex := s.notify.faults.badIndex && !w.getLsbD 2
              completeUnderflow := s.notify.faults.completeUnderflow && !w.getLsbD 3 } } } ∧
    (registerWord 0x1F#5 s).toNat =
      (if s.notify.faults.cmdOverrun then 1 else 0) + (if s.notify.faults.stageConflict then 2 else 0)
        + (if s.notify.faults.badIndex then 4 else 0) + (if s.notify.faults.completeUnderflow then 8 else 0) ∧
    readEffect 0x1F#5 s = s

/-- A write of a plain store is stored, with the bits it keeps; a write of a register that discards writes changes nothing. -/
def Obligations.WindowWriteStoresOrIsDiscarded : Prop :=
  ∀ (w : Word) (s : State), Settled s →
    exec (.windowWrite 0x14#5 w) s = .next { s with window := { s.window with operandHi := w.extractLsb' 0 8 } } ∧
    exec (.windowWrite 0x15#5 w) s = .next { s with window := { s.window with operandLo := w } } ∧
    exec (.windowWrite 0x16#5 w) s = .next { s with window := { s.window with cfgIndex := w.extractLsb' 0 8 } } ∧
    ∀ a ∈ [0x00#5, 0x01#5, 0x03#5, 0x0E#5, 0x0F#5, 0x10#5, 0x11#5, 0x12#5, 0x13#5, 0x19#5, 0x1A#5, 0x1B#5, 0x1C#5, 0x1E#5],
      exec (.windowWrite a w) s = .next s

/-! ### Configuration writes -/

/-- A write of the enables item sets the three enables; setting the TB0 enable where it was clear restarts the phase, and
clearing it where it was set sends every TIMING channel to WAIT_START. -/
def Obligations.TimebaseEnablesWriteSetsEnables : Prop :=
  ∀ (w : Word) (s : State), Settled s → s.window.cfgIndex = 0x00#8 →
    exec (.timebaseEnablesWrite w) s = .next
      { s with
        tb := { s.tb with
          enables := ⟨w.getLsbD 0, w.getLsbD 1, w.getLsbD 2⟩
          phase := if w.getLsbD 0 = true ∧ s.tb.enables.clock = false then 0 else s.tb.phase }
        meas := { s.meas with
          channels := s.meas.channels.map fun ch =>
            if w.getLsbD 0 = false ∧ s.tb.enables.clock = true ∧ ch.state = .timing then { ch with state := .waitStart }
            else ch } }

/-- A write of the prescaler item stores its lower byte and restarts the phase; a write of the EDGE selections item stores
both selections, an edge kind of code 3 as both. Neither changes anything else. -/
def Obligations.PrescalerAndSelectionsWrites : Prop :=
  ∀ (w : Word) (s : State), Settled s →
    (s.window.cfgIndex = 0x01#8 →
      exec (.prescalerWrite w) s = .next { s with tb := { s.tb with prescaler := w.extractLsb' 0 8, phase := 0 } }) ∧
    (s.window.cfgIndex = 0x02#8 →
      let kind : Nat → EdgeKind := fun k => if k = 0 then .rise else if k = 1 then .fall else .both
      exec (.edgeSelectionsWrite w) s = .next
        { s with tb := { s.tb with
            countSelection :=
              { on := w.getLsbD 4, kind := kind (w.toNat / 4 % 4), line := Fin.ofNat 4 w.toNat }
            clearSelection :=
              { on := w.getLsbD 12, kind := kind (w.toNat / 1024 % 4), line := Fin.ofNat 4 (w.toNat / 256) } } })

/-- A write of line n's configuration item sets polarity, safe level and pulse policy at once and changes no run field. -/
def Obligations.LineConfigurationWriteSetsThreeFields : Prop :=
  ∀ (w : Word) (n : Fin 8) (s : State), Settled s → s.window.cfgIndex.toNat = 8 + n.val →
    exec (.lineConfigurationWrite w) s = .next
      { s with lines := s.lines.set n { s.line n with
          polarity := if w.getLsbD 0 then .activeLow else .activeHigh
          safeLevel := if w.getLsbD 1 then .high else .low
          pulsePolicy := if w.getLsbD 2 then .refuse else .retrigger } }

/-- Writes of a channel's set-up and timeout items are stored in the items and do not reach the channel; a code above its
range stores the substitute. A write of the status item clears LIMIT when bit 4 is 1. -/
def Obligations.ChannelItemWrites : Prop :=
  ∀ (w : Word) (c : Fin 4) (s : State), Settled s →
    (s.window.cfgIndex.toNat = 0x10 + c.val →
      exec (.channelConfigurationWrite w) s = .next
        { s with meas := { s.meas with items := s.meas.items.set c { s.channelItems c with
            setup :=
              { input := Fin.ofNat 4 w.toNat
                mode :=
                  match w.toNat / 4 % 4 with
                  | 0 => .periodRise
                  | 1 => .periodFall
                  | 2 => .high
                  | _ => .low
                windowExponent := Fin.ofNat 9 (min (w.toNat / 16 % 16) 8)
                unitShift := Fin.ofNat 9 (min (w.toNat / 256 % 16) 8)
                rounding :=
                  match w.toNat / 4096 % 4 with
                  | 1 => .halfUp
                  | 2 => .halfEven
                  | _ => .trunc
                extremes := w.getLsbD 14 } } } }) ∧
    (s.window.cfgIndex.toNat = 0x14 + c.val →
      exec (.channelConfigurationWrite w) s = .next
        { s with meas := { s.meas with
            items := s.meas.items.set c { s.channelItems c with timeoutHi := w.extractLsb' 0 8 } } }) ∧
    (s.window.cfgIndex.toNat = 0x18 + c.val →
      exec (.channelConfigurationWrite w) s = .next
        { s with meas := { s.meas with items := s.meas.items.set c { s.channelItems c with timeoutLo := w } } }) ∧
    (s.window.cfgIndex.toNat = 0x1C + c.val →
      exec (.channelStatusWrite w) s = .next
        { s with meas := { s.meas with channels := s.meas.channels.set c { s.channel c with
            limit := (s.channel c).limit && !w.getLsbD 4 } } })

/-- A write of item 0x20 or 0x21 sets every level setting the item holds and no other, clears the flag of each source it
disables and no other flag, and changes neither the current level nor the claim stack. -/
def Obligations.NotificationLevelsWriteSetsSettings : Prop :=
  ∀ (w : Word) (s : State), Settled s → s.window.cfgIndex = 0x20#8 ∨ s.window.cfgIndex = 0x21#8 →
    let first := if s.window.cfgIndex = 0x20#8 then 0 else 8
    let count := if s.window.cfgIndex = 0x20#8 then 8 else 3
    ∃ n, exec (.notificationLevelsWrite w) s = .next { s with notify := n } ∧
      (∀ k : Fin 11, n.settings[k] =
        if first ≤ k.val ∧ k.val < first + count then
          (match w.toNat / 4 ^ (k.val - first) % 4 with
          | 0 => NotifySetting.disabled
          | 1 => .level 0
          | 2 => .level 1
          | _ => .level 2)
        else s.notify.settings[k]) ∧
      (∀ j : Fin 13, n.flags[j] =
        if first + 2 ≤ j.val ∧ j.val < first + 2 + count ∧ w.toNat / 4 ^ (j.val - (first + 2)) % 4 = 0 then false
        else s.notify.flags[j]) ∧
      n.current = s.notify.current ∧ n.stack = s.notify.stack ∧ n.faults = s.notify.faults

/-- A write of the threshold item stores 1 for 0, 16 above 16, and the value itself between, from bits 7 to 0, in any state of
the engine and of SAFE; it changes no record, count or flag; a read returns the threshold and has no side effect. -/
def Obligations.ReportThresholdWriteIsLimited : Prop :=
  ∀ (w : Word) (s : State), Settled s → s.window.cfgIndex = 0x22#8 →
    exec (.reportThresholdWrite w) s = .next
      { s with queue := { s.queue with
          threshold := if w.toNat % 256 = 0 then 1 else if 16 < w.toNat % 256 then 16 else w.toNat % 256 } } ∧
    windowRead 0x17#5 s = { s with readWord := BitVec.ofNat 16 s.queue.threshold }

/-- An access to CFG_DATA while CFG_INDEX names no item: a write is discarded, a read returns 0, and either sets the
BAD_INDEX bit and the FAULT flag. -/
def Obligations.BadIndexAccessIsDiscarded : Prop :=
  ∀ (w : Word) (s : State), Settled s →
    (3 ≤ s.window.cfgIndex.toNat ∧ s.window.cfgIndex.toNat ≤ 7) ∨ 0x23 ≤ s.window.cfgIndex.toNat →
    let n := { s.notify with
      flags := s.notify.flags.set 0 true
      faults := { s.notify.faults with badIndex := true } }
    exec (.badIndex (.write w)) s = .next { s with notify := n } ∧
    exec (.badIndex .read) s = .next { s with readWord := 0#16, notify := n }

/-- What a configuration item reads back is what a write of that word stores: the words and the fields of every item agree, so
the write changes nothing, but for two items. A write of the prescaler item restarts the phase whatever it writes, and a write
of a status item clears the LIMIT that it reads. A read of CFG_DATA returns the word of the item that CFG_INDEX names and
changes nothing. -/
def Obligations.ConfigurationItemsReadBack : Prop :=
  ∀ (s : State), 1 ≤ s.queue.threshold → s.queue.threshold ≤ 16 → DisabledFlagsClear s.notify →
    (∀ item : CfgItem, item ≠ .prescaler → (∀ c, item ≠ .status c) → writeCfgItem item (cfgItemWord item s) s = s) ∧
    writeCfgItem .prescaler (cfgItemWord .prescaler s) s = { s with tb := { s.tb with phase := 0 } } ∧
    (∀ c : Fin 4, writeCfgItem (.status c) (cfgItemWord (.status c) s) s = s.setChannel c { s.channel c with limit := false }) ∧
    ∀ item : CfgItem, cfgItemOfIndex s.window.cfgIndex = some item → Settled s →
      windowRead 0x17#5 s = { s with readWord := cfgItemWord item s }

/-! ### Input edges and SAFE_N -/

/-- A level seen with no change is no edge. While SAFE is ACTIVE an edge only updates the last level. In both cases the claims
that the command carries are not taken, which is the model's choice (log 6). An edge that matches no selection, no hold and no
channel passes with no other effect. A claim taken between two steps of a dispatch is the command of its name taken whole: a
window write, a window read, the next step or the completion of the host command in progress, or a CLK period with all the
work of the arrival it may make, the stall checks first or last. ENGINE_RESET and RELEASE_LINES do not complete there (log 7). -/
def Obligations.EdgesWithoutConsumersAndClaims : Prop :=
  ∀ (line : Fin 4) (level : Level) (c1 c2 : List Claim) (s : State), Settled s →
    (s.inputs.last[line] = level → exec (.inputEdge line level c1 c2) s = .next s) ∧
    (s.inputs.last[line] ≠ level → s.inputs.safe = .active →
      exec (.inputEdge line level c1 c2) s =
        .next { s with inputs := { s.inputs with last := s.inputs.last.set line level } }) ∧
    (s.inputs.last[line] ≠ level →
      (s.tb.clearSelection.on = true → s.tb.clearSelection.line ≠ line) →
      (s.tb.countSelection.on = true → s.tb.countSelection.line ≠ line) →
      (∀ i : SlotId, (s.slot i).state = .held → (s.slot i).record.holdLine ≠ line) →
      (∀ c : Fin 4, (s.channel c).state ≠ .off → (s.channel c).latched.setup.input ≠ line) →
      exec (.inputEdge line level [] []) s =
        .next { s with inputs := { s.inputs with last := s.inputs.last.set line level } }) ∧
    (∀ a w, exec (.windowWrite a w) s = .next (takeClaim (.hostWrite a w) s)) ∧
    (∀ t, exec (.tbHiRead t) s = .next (takeClaim (.hostRead (BitVec.ofNat 5 (14 + 2 * timebaseNumber t))) s)) ∧
    (exec .reportDataRead s = .next (takeClaim (.hostRead 0x1B#5) s) ∧
      exec .claim s = .next (takeClaim (.hostRead 0x1D#5) s) ∧
      exec (.badIndex .read) s = .next (takeClaim (.hostRead 0x17#5) s)) ∧
    (∀ a, a ∉ [0x0E#5, 0x10#5, 0x12#5, 0x17#5, 0x1B#5, 0x1D#5] →
      takeClaim (.hostRead a) s = { s with readWord := registerWord a s }) ∧
    (∃ a b, exec .clkPeriod s = .next a ∧ takeClaim (.clkPeriod false) s = settle a ∧
      exec .stall a = .next b ∧ takeClaim (.clkPeriod true) s = settle b) ∧
    (s.window.engine = none → takeClaim .commandStep s = s) ∧
    ∀ rec, s.window.engine = some rec →
      if jobCode rec.job = .engineReset ∨ jobCode rec.job = .releaseLines then takeClaim .commandStep s = s
      else exec (completionRow (jobCode rec.job)) s = .next (takeClaim .commandStep s)

/-- At the first step of a dispatch, a match of the clear selection loads TB1 with 0, with a load's notices and whatever its
enable, and is not counted; otherwise a match of the count selection is a whole arrival of TB1 with its pulse ends, its batch
and its deferred operations when TB1 is enabled, and nothing when it is not. The claims carried for each place, the release of
the held entries and the channels in ascending number follow, each step on what the one before left. Where no entry is held or
due on TB1, no pulse is timed on it and no channel is open, the state that is left is given whole. -/
def Obligations.EdgeClearsOrCountsTB1 : Prop :=
  ∀ (line : Fin 4) (level : Level) (c1 c2 : List Claim) (s : State), Settled s → s.inputs.last[line] ≠ level →
    s.inputs.safe ≠ .active →
    let s' : State := { s with inputs := { s.inputs with last := s.inputs.last.set line level } }
    let between : List Claim → State → State := fun cs u => cs.foldl (fun u c => takeClaim c u) u
    let laterSteps : State → State := fun u =>
      ([0, 1, 2, 3] : List (Fin 4)).foldl (channelMet line level)
        (between c2 (releaseHeld line (edgeOf level) (between c1 u)))
    (Selected s.tb.clearSelection line level →
      exec (.inputEdge line level c1 c2) s = .next (laterSteps (loadTimebase .edge 0#24 s'))) ∧
    (¬ Selected s.tb.clearSelection line level → Selected s.tb.countSelection line level → s.tb.enables.edge = true →
      exec (.inputEdge line level c1 c2) s = .next (laterSteps (finishBatch stepRequest (arrived .edge s')))) ∧
    (¬ Selected s.tb.clearSelection line level → (Selected s.tb.countSelection line level → s.tb.enables.edge = false) →
      exec (.inputEdge line level c1 c2) s = .next (laterSteps s')) ∧
    (s.dueList .edge = [] → (∀ i : SlotId, (s.slot i).state ≠ .held) → (∀ c : Fin 4, (s.channel c).state = .off) →
      (∀ n : Fin 8, ∀ p, (s.line n).pulse = some p → p.timebase ≠ .edge) →
      (Selected s.tb.clearSelection line level →
        exec (.inputEdge line level [] []) s =
          .next { s' with tb := { s.tb with values := { s.tb.values with edge := 0#24 } } }) ∧
      (¬ Selected s.tb.clearSelection line level → Selected s.tb.countSelection line level → s.tb.enables.edge = true →
        exec (.inputEdge line level [] []) s =
          .next { s' with
            tb := { s.tb with values := { s.tb.values with edge := s.tb.values.edge + 1#24 } }
            notify :=
              if s.tb.values.edge + 1#24 = 0#24 ∧ s.notify.settings[7] ≠ .disabled then
                { s.notify with flags := s.notify.flags.set 9 true }
              else s.notify }) ∧
      (¬ Selected s.tb.clearSelection line level → Selected s.tb.countSelection line level → s.tb.enables.edge = false →
        exec (.inputEdge line level [] []) s = .next s'))

/-- The second step of a dispatch: every HELD entry of the edge's line and kind goes to ARMED with next due its timebase's
value plus its offset, and no other slot changes; the released entries join their lists in ascending slot number, each after
the entries of equal or smaller distance. It is all that an edge does which matches no selection and meets no open channel. -/
def Obligations.EdgeReleasesHeldEntries : Prop :=
  (∀ (line : Fin 4) (level : Level) (s : State), (∀ t ∈ allTimebases, DueListSound s t) →
    ∃ sched : Scheduler, releaseHeld line (edgeOf level) s = { s with sched := sched } ∧
      sched.batches = s.sched.batches ∧
      (∀ i : SlotId, sched.slots[i] =
        if Released line level (s.slot i) then
          { s.slot i with
            state := .armed
            nextDue := s.tbValue (s.slot i).record.timebase + (s.slot i).record.due }
        else s.slot i) ∧
      ∀ t, sched.lists.get t =
        ((List.finRange 32).filter fun i =>
          decide (Released line level (s.slot i) ∧ (s.slot i).record.timebase = t)).foldl
          (fun l i => placedAt (fun j => distance sched.slots[j].nextDue (s.tbValue t))
            (distance sched.slots[i].nextDue (s.tbValue t)) i l)
          (s.dueList t)) ∧
  ∀ (line : Fin 4) (level : Level) (s : State), Settled s → s.inputs.last[line] ≠ level →
    s.inputs.safe ≠ .active →
    (s.tb.clearSelection.on = true → s.tb.clearSelection.line ≠ line) →
    (s.tb.countSelection.on = true → s.tb.countSelection.line ≠ line) →
    (∀ c : Fin 4, (s.channel c).state ≠ .off → (s.channel c).latched.setup.input ≠ line) →
    exec (.inputEdge line level [] []) s =
      .next (releaseHeld line (edgeOf level) { s with inputs := { s.inputs with last := s.inputs.last.set line level } })

/-- The third step of a dispatch: the channels in ascending number, each open on the line starting, ending or ignoring an
interval by its mode while TB0 is enabled; a sample of (v - start) mod 2^24 joins the window, and a full window gives its MEAS
record and is cleared. While TB0 is disabled every channel stays as it was. It is all that an edge does which matches no
selection and no hold. -/
def Obligations.EdgeTimesAnInterval : Prop :=
  (∀ (line : Fin 4) (level : Level) (s : State),
    channelsEdge line (edgeOf level) s = ([0, 1, 2, 3] : List (Fin 4)).foldl (channelMet line level) s ∧
    (s.tb.enables.clock = false → channelsEdge line (edgeOf level) s = s)) ∧
  ∀ (line : Fin 4) (level : Level) (s : State), Settled s → s.inputs.last[line] ≠ level →
    s.inputs.safe ≠ .active →
    (s.tb.clearSelection.on = true → s.tb.clearSelection.line ≠ line) →
    (s.tb.countSelection.on = true → s.tb.countSelection.line ≠ line) →
    (∀ i : SlotId, (s.slot i).state = .held → (s.slot i).record.holdLine ≠ line) →
    let s' : State := { s with inputs := { s.inputs with last := s.inputs.last.set line level } }
    exec (.inputEdge line level [] []) s = .next (([0, 1, 2, 3] : List (Fin 4)).foldl (channelMet line level) s') ∧
    (s.tb.enables.clock = false → exec (.inputEdge line level [] []) s = .next s')

/-- An assertion of SAFE_N takes RUN and CLEARED to ACTIVE: every hold is set, every interval in progress is discarded and
SAFE is pending. A release takes ACTIVE to CLEARED and changes nothing else. A level already seen is no edge. -/
def Obligations.SafeTransitionsFollowThePin : Prop :=
  ∀ (s : State), Settled s → SafeStateSound s →
    (s.inputs.safeN = .high →
      exec .safeAssertion s = .next
        { s with
          inputs := { s.inputs with safeN := .low, safe := .active }
          lines := s.lines.map fun l => { l with safeHold := true }
          meas := { s.meas with channels := s.meas.channels.map fun ch =>
            if ch.state = .timing then { ch with state := .waitStart } else ch }
          notify := { s.notify with flags := s.notify.flags.set 1 true } } ∧
      exec .safeRelease s = .next s) ∧
    (s.inputs.safeN = .low →
      exec .safeRelease s = .next { s with inputs := { s.inputs with safeN := .high, safe := .cleared } } ∧
      exec .safeAssertion s = .next s)

/-! ### Clock, arrivals and their work -/

/-- A CLK period raises the phase while TB0 counts and does nothing while it does not; the period that would bring the phase
to P completes it instead. At a completion TB0 advances by one, the wrap onto 0 sets TB0_WRAP, the entries due on the new
value leave list 0 in list order as the batch, and the line unit and the measurement unit have the new value to take. That
TB0_ARRIVAL completes the phase from any phase is the model's choice (log 2), and that the work waits is log 4. -/
def Obligations.ClockAdvancesTB0 : Prop :=
  ∀ (s : State), Settled s →
    let v := s.tb.values.clock + 1#24
    let counts := s.tb.enables.clock = true ∧ s.inputs.safe ≠ .active
    let periods := if s.tb.prescaler = 0#8 then 256 else s.tb.prescaler.toNat
    (¬ counts → exec .clkPeriod s = .next s ∧ exec .tb0Arrival s = .next s) ∧
    (counts → s.tb.phase + 1 < periods →
      exec .clkPeriod s = .next { s with tb := { s.tb with phase := s.tb.phase + 1 } }) ∧
    (counts → periods ≤ s.tb.phase + 1 → exec .clkPeriod s = exec .tb0Arrival s) ∧
    (counts →
      exec .tb0Arrival s = .next
        { s with
          tb := { s.tb with phase := 0, values := { s.tb.values with clock := v } }
          notify :=
            if v = 0#24 ∧ s.notify.settings[6] ≠ .disabled then { s.notify with flags := s.notify.flags.set 8 true }
            else s.notify
          sched := { s.sched with
            lists := { s.sched.lists with clock := s.sched.lists.clock.filter fun i => decide ((s.slot i).nextDue ≠ v) }
            batches :=
              [{ timebase := .clock
                 value := v
                 waiting := s.sched.lists.clock.filter fun i => decide ((s.slot i).nextDue = v)
                 chain := []
                 deferred := [] }] }
          notices := ⟨some v, some v⟩ })

/-- BATCH_FIRE takes the batch of a TB0 arrival to its end, and a batch of TB1 or TB2 goes the same way. The waiting entries
fire one at a time in list order, whatever their kinds: each takes its action, then its FIRED record flagged by the answer,
then ENTRY, then its re-arm or retirement, and no action takes a later entry out of the batch. When none is left waiting, the
deferred list is applied one operation at a time from its first: a load as a load of the batch's timebase, a STEP as a request
that is a whole arrival of TB2 when it is enabled and SAFE is not ACTIVE and nothing otherwise. Then the record is given up.
Two kinds of batch are given whole: of MARK entries alone; and of MARK, STEP and own-timebase LOAD_TB entries alone, where no
entry is due on TB2 and no pulse is timed on it. -/
def Obligations.BatchFiresInListOrderThenDefers : Prop :=
  (∀ (s : State) (b : BatchRecord), s.sched.batches = [b] → s.notices.lines = none →
    exec .batchFire s = .next (finishBatch stepRequest s)) ∧
  (∀ (request : State → State) (s : State) (t : Timebase) (v : Tick) (i : SlotId) (rest : List SlotId) (ops : List Deferred)
      (outer : List BatchRecord), s.sched.batches = ⟨t, v, i :: rest, [], ops⟩ :: outer →
    let begun := s.setBatches (⟨t, v, rest, [i], ops⟩ :: outer)
    let acted := fireAction passOfAFire (s.slot i).record v begun
    let fired := leaveChain i (entryFired i v false acted.2 acted.1)
    finishBatch request s = finishBatch request fired ∧
      ∃ new, fired.sched.batches = ⟨t, v, rest, [], ops ++ new⟩ :: outer) ∧
  (∀ (request : State → State) (s : State) (t : Timebase) (v : Tick) (op : Deferred) (ops : List Deferred)
      (outer : List BatchRecord), request = stepRequest ∨ request = id →
      s.sched.batches = ⟨t, v, [], [], op :: ops⟩ :: outer →
    let left := s.setBatches (⟨t, v, [], [], ops⟩ :: outer)
    finishBatch request s = finishBatch request
      (match op with
      | .load x => loadTimebase t x left
      | .step => request left)) ∧
  (∀ (request : State → State) (s : State) (t : Timebase) (v : Tick) (outer : List BatchRecord),
    s.sched.batches = ⟨t, v, [], [], []⟩ :: outer → finishBatch request s = s.setBatches outer) ∧
  (∀ s : State, stepRequest s =
    if s.tb.enables.step = true ∧ s.inputs.safe ≠ .active then finishBatch id (arrived .step s) else s) ∧
  ∀ (s : State) (v : Tick) (waiting : List SlotId), s.sched.batches = [⟨.clock, v, waiting, [], []⟩] →
    s.notices.lines = none →
    let fired := waiting.foldl (fun s i => markFired v i s) s
    ((∀ i ∈ waiting, (s.slot i).record.kind = some .mark) → exec .batchFire s = .next (fired.setBatches [])) ∧
    (BatchSound s → s.dueList .step = [] → (∀ n : Fin 8, ∀ p, (s.line n).pulse = some p → p.timebase ≠ .step) →
      (∀ i ∈ waiting, (s.slot i).record.kind = some .mark ∨ (s.slot i).record.kind = some .step ∨
        ((s.slot i).record.kind = some .loadTb ∧ (s.slot i).record.target = 0#3)) →
      let act : State → SlotId → State := fun u i =>
        if (s.slot i).record.kind = some .loadTb then loadTimebase .clock (s.slot i).record.operand u
        else if (s.slot i).record.kind = some .step ∧ u.tb.enables.step = true ∧ u.inputs.safe ≠ .active then
          let moved := { u with tb := { u.tb with values := { u.tb.values with step := u.tb.values.step + 1#24 } } }
          if moved.tb.values.step = 0#24 then raiseSource (.wrap .step) moved else moved
        else u
      exec .batchFire s = .next ((waiting.foldl act fired).setBatches []))

/-- PULSE_END: every pulse timed on TB0 whose end value is the arrival's value ends, its line going to the inactive level under
the polarity then held, and every other line and everything else stays. BATCH_FIRE takes such pulse ends first, when they are
still to take; afterwards no batch record is held and no notice to the line unit waits. Neither changes what a pin drives: the
pins show the arrival taken whole, and what they show is the precedence of safe level, force and scheduled level. That the
line unit's notice waits after an arrival, that PULSE_END changes nothing without one and BATCH_FIRE nothing without a batch
record, are the model's choice (log 4). -/
def Obligations.PulseEndsOfAnArrival : Prop :=
  ∀ (s : State),
    (s.notices.lines = none → exec .pulseEnd s = .next s) ∧
    (∀ v, s.notices.lines = some v →
      exec .pulseEnd s = .next
        { s with
          notices := { s.notices with lines := none }
          lines := s.lines.map fun l =>
            if l.pulse = some ⟨.clock, v⟩ then
              { l with
                scheduled := match l.polarity with
                  | .activeHigh => .low
                  | .activeLow => .high
                pulse := none }
            else l }) ∧
    (s.sched.batches = [] → exec .batchFire s = .next s) ∧
    (s.sched.batches ≠ [] →
      ∃ a t, exec .pulseEnd s = .next a ∧ exec .batchFire a = .next t ∧ exec .batchFire s = .next t ∧
        t.sched.batches = [] ∧ t.notices.lines = none) ∧
    (∀ c ∈ [Instr.pulseEnd, .batchFire], ∀ t, exec c s = .next t → ∀ n, drivenLevel t n = drivenLevel s n) ∧
    (Settled s → ∀ n, drivenLevel s n =
      if (s.line n).safeHold then (s.line n).safeLevel
      else match (s.line n).force with
        | .low => .low
        | .high => .high
        | .released => (s.line n).scheduled)

/-- STALL: each TIMING channel with a timeout that the elapsed ticks have reached goes to WAIT_START with a STALL record and
its source, in ascending channel number, and REPORT and LOST are raised as those records are appended or dropped; window, sum
and extremes are kept; every other channel, flag and item stays. That a notice to the measurement unit waits after an arrival,
and that STALL changes nothing without one, is the model's choice (log 4). -/
def Obligations.StallGivesUpLongIntervals : Prop :=
  ∀ (s : State),
    (s.notices.stalls = none → exec .stall s = .next s) ∧
    ∀ v, s.notices.stalls = some v →
      let stalls : Fin 4 → Bool := fun c =>
        decide ((s.channel c).state = .timing ∧ (s.channel c).latched.timeout ≠ 0#24 ∧
          (s.channel c).latched.timeout.toNat ≤ (v - (s.channel c).start).toNat)
      let stalled := ((List.finRange 4).filter stalls).foldl
        (fun qn c => handed (.stall c) (qn.1, caused (.mc c) qn.2)) (s.queue, s.notify)
      exec .stall s = .next
        { s with
          notices := { s.notices with stalls := none }
          meas := { s.meas with
            channels := s.meas.channels.mapFinIdx fun c ch h =>
              if stalls ⟨c, h⟩ then { ch with state := .waitStart } else ch }
          queue := stalled.1
          notify := stalled.2 }

/-! ### Operations the commands share -/

/-- A record handed to the queue is appended whole with its gap word when it fits, and raises REPORT when the records then
unread reach the threshold; otherwise it is dropped whole and counted, and LOST is raised. Nothing else changes. -/
def Obligations.HandedRecordIsAppendedOrCounted : Prop :=
  ∀ (r : Report) (s : State), QueueSound s.queue →
    let need := (unreadWords ⟨r, s.queue.lost, 0⟩).length
    (need + (s.queue.records.flatMap unreadWords).length ≤ 128 →
      let q : ReportQueue := { s.queue with records := s.queue.records ++ [⟨r, s.queue.lost, 0⟩], lost := 0 }
      handReport r s =
        if q.threshold ≤ q.records.length then raiseSource .report { s with queue := q } else { s with queue := q }) ∧
    (128 < need + (s.queue.records.flatMap unreadWords).length →
      handReport r s =
        raiseSource .lost { s with queue := { s.queue with lost := min (s.queue.lost + 1) 65535 } })

/-- Distances lie in 1 to 2^24; distance 1 is the next value; an entry due on the current value is a full wrap away; an
arrival lowers every other distance by one; and the place an entry takes in an ordered list is after the entries of equal or
smaller distance, which keeps the list ordered. -/
def Obligations.DistanceOrdersTheLists : Prop :=
  (∀ d v : Tick, 1 ≤ distance d v ∧ distance d v ≤ 16777216 ∧ (distance d v : ℤ) = ((d.toNat : ℤ) - v.toNat - 1) % 16777216 + 1 ∧
    (distance d v = 1 ↔ d = v + 1#24) ∧ (distance d v = 16777216 ↔ d = v) ∧
    (distance d v ≠ 1 → distance d (v + 1#24) + 1 = distance d v)) ∧
  ∀ (dist : SlotId → Nat) (i : SlotId) (l : List SlotId), l.Pairwise (fun j k => dist j ≤ dist k) →
    insertEntry dist i l = placedAt dist (dist i) i l ∧
    (insertEntry dist i l).Pairwise (fun j k => dist j ≤ dist k) ∧ (insertEntry dist i l).Perm (i :: l)

/-- The mean and the extremes of a full window by the three rounding modes, limited to 65,535, in the MEAS record. -/
def Obligations.MeanAndExtremesAreRoundedAndLimited : Prop :=
  ∀ (c : Fin 4) (ch : Channel),
    let u := ch.latched.setup.unitShift.val
    let rounded : Nat → Nat → Nat := fun x d =>
      let q := x / d
      let r := x - q * d
      match ch.latched.setup.rounding with
      | .trunc => q
      | .halfUp => if 2 * r ≥ d then q + 1 else q
      | .halfEven => if 2 * r > d ∨ (2 * r = d ∧ q % 2 = 1) then q + 1 else q
    let mean := rounded ch.sum (2 ^ (ch.latched.setup.windowExponent.val + u))
    let lo := rounded ch.min (2 ^ u)
    let hi := rounded ch.max (2 ^ u)
    let ext := ch.latched.setup.extremes
    measReport c ch =
      .meas c (BitVec.ofNat 16 (min mean 65535))
        (if ext then some (BitVec.ofNat 16 (min lo 65535), BitVec.ofNat 16 (min hi 65535)) else none)
        (decide (65535 < mean ∨ (ext = true ∧ (65535 < lo ∨ 65535 < hi))))

/-- What SET, CLEAR, TOGGLE and PULSE do to their line and what they answer: a level action removes a pulse in flight and
answers CUT; a PULSE starts one, replaces the one in flight under RETRIGGER, or leaves it and answers ABSORBED under REFUSE. -/
def Obligations.LineActionsAndTheirAnswers : Prop :=
  ∀ (g : BitVec 3 → State → State) (r : Record) (v : Tick) (s : State) (n : Fin 8), r.target.toNat = n.val →
    let l := s.line n
    let answer : Answer := if l.pulse = none then .nothing else .cut
    let active : Level := match l.polarity with
      | .activeHigh => .high
      | .activeLow => .low
    let started : Pulse := ⟨r.timebase, v + r.operand⟩
    (r.kind = some .set → fireAction g r v s = (s.setLine n { l with scheduled := .high, pulse := none }, answer)) ∧
    (r.kind = some .clear → fireAction g r v s = (s.setLine n { l with scheduled := .low, pulse := none }, answer)) ∧
    (r.kind = some .toggle →
      fireAction g r v s =
        (s.setLine n { l with scheduled := if l.scheduled = .low then .high else .low, pulse := none }, answer)) ∧
    (r.kind = some .pulse →
      (l.pulse = none →
        fireAction g r v s = (s.setLine n { l with scheduled := active, pulse := some started }, .nothing)) ∧
      (l.pulse ≠ none → l.pulsePolicy = .retrigger →
        fireAction g r v s = (s.setLine n { l with pulse := some started }, .nothing)) ∧
      (l.pulse ≠ none → l.pulsePolicy = .refuse → fireAction g r v s = (s, .absorbed)))

/-- What the other actions do at their fire and what they answer, inside a batch: a LOAD_TB of another timebase loads it at
once and one of the batch's own is deferred; a STEP is deferred, and given up with ABSORBED in a batch of TB2; MEAS_OPEN and
MEAS_CLOSE open an OFF channel and close an open one, and are ABSORBED otherwise; MARK acts on nothing; CANCEL_GROUP retires
the ARMED and HELD members of its target group that are not being fired, and takes each out of its list; ARM_GROUP makes the
pass it is given (ArmGroupActionArmsItsMembers says what the pass of a fire does). -/
def Obligations.OtherActionsAndTheirAnswers : Prop :=
  ∀ (g : BitVec 3 → State → State) (r : Record) (v : Tick) (s : State) (b : BatchRecord) (outer : List BatchRecord),
    s.sched.batches = b :: outer →
    let deferred : Deferred → State := fun op =>
      { s with sched := { s.sched with batches := { b with deferred := b.deferred ++ [op] } :: outer } }
    (r.kind = some .mark → fireAction g r v s = (s, .nothing)) ∧
    (r.kind = some .loadTb → ∀ t, r.target.toNat = timebaseNumber t →
      fireAction g r v s = (if t = b.timebase then deferred (.load r.operand) else loadTimebase t r.operand s, .nothing)) ∧
    (r.kind = some .step →
      fireAction g r v s = if b.timebase = .step then (s, .absorbed) else (deferred .step, .nothing)) ∧
    (r.kind = some .armGroup → fireAction g r v s = (g r.target s, .nothing)) ∧
    (r.kind = some .cancelGroup →
      let takes : SlotId → Bool := fun i =>
        decide (r.target ≠ 0#3 ∧ ((s.slot i).state = .armed ∨ (s.slot i).state = .held) ∧
          (s.slot i).record.group = r.target ∧ ∀ b ∈ s.sched.batches, i ∉ b.waiting ∧ i ∉ b.chain)
      ∃ sched : Scheduler, fireAction g r v s = ({ s with sched := sched }, .nothing) ∧
        sched.batches = s.sched.batches ∧
        (∀ i : SlotId, sched.slots[i] =
          if takes i then (if (s.slot i).record.keep then { s.slot i with state := .spent } else Slot.empty) else s.slot i) ∧
        ∀ t, sched.lists.get t =
          (s.dueList t).filter fun i => !(takes i && decide ((s.slot i).record.timebase = t))) ∧
    ∀ c : Fin 4, r.target.toNat = c.val →
      let ch := s.channel c
      (r.kind = some .measOpen →
        (ch.state ≠ .off → fireAction g r v s = (s, .absorbed)) ∧
        (ch.state = .off →
          fireAction g r v s =
            (s.setChannel c
              { state := .waitStart
                latched :=
                  { setup := (s.channelItems c).setup
                    timeout := (s.channelItems c).timeoutHi ++ (s.channelItems c).timeoutLo }
                start := ch.start, count := 0, sum := 0, min := 0, max := 0, limit := ch.limit }, .nothing))) ∧
      (r.kind = some .measClose →
        (ch.state = .off → fireAction g r v s = (s, .absorbed)) ∧
        (ch.state ≠ .off →
          fireAction g r v s =
            (handReport (.closed c (BitVec.ofNat 16 ch.count))
              (raiseSource (.mc c)
                (s.setChannel c { ch with state := .off, count := 0, sum := 0, min := 0, max := 0 })), .nothing)))

/-- The pass of an ARM_GROUP action over the slots in ascending number takes each slot that is STAGED or SPENT, a member of
the group and not being fired. Where no such member is late under FIRE_NOW, those with a hold are held, those ahead join
their lists in slot order, those late are refused with BY_ACTION, and nothing else changes. In general the pass is, slot by
slot in ascending number, one arm step on the state that the lower slots left: the slot is passed over, held, listed, refused
with BY_ACTION, or fires at once, whatever the members before it did. The fire of an ARM_GROUP entry that so fires one MARK
member takes the member's whole fire, with LATE, before its own FIRED record. -/
def Obligations.ArmGroupActionArmsItsMembers : Prop :=
  ∀ (g : BitVec 3) (s : State),
    let takes : SlotId → Bool := fun i =>
      decide (g ≠ 0#3 ∧ ((s.slot i).state = .staged ∨ (s.slot i).state = .spent) ∧ (s.slot i).record.group = g ∧
        ∀ b ∈ s.sched.batches, i ∉ b.waiting ∧ i ∉ b.chain)
    let now : SlotId → Tick := fun i => s.tbValue (s.slot i).record.timebase
    let late : SlotId → Bool := fun i =>
      decide ((s.slot i).record.holdEdge = .absent ∧ 8388608 < distance (s.slot i).record.due (now i))
    (∀ fireNow : SlotId → Tick → State → State, (∀ t ∈ allTimebases, DueListSound s t) →
      (∀ i, takes i = true → late i = true → (s.slot i).record.latePolicy = .refuse) →
      let refused := ((List.finRange 32).filter fun i => takes i && late i).foldl
        (fun qn i => handed (.refused i (s.slot i).record.timebase true false) qn) (s.queue, s.notify)
      ∃ sched : Scheduler,
        groupArmPass fireNow g s = { s with sched := sched, queue := refused.1, notify := refused.2 } ∧
        sched.batches = s.sched.batches ∧
        (∀ i : SlotId, sched.slots[i] =
          if takes i && !(late i) then
            (if (s.slot i).record.holdEdge = .absent then armedAs .armed (s.slot i).record.due (s.slot i)
            else armedAs .held 0#24 (s.slot i))
          else s.slot i) ∧
        ∀ t, sched.lists.get t =
          ((List.finRange 32).filter fun i => takes i && !(late i) &&
            decide ((s.slot i).record.holdEdge = .absent ∧ (s.slot i).record.timebase = t)).foldl
            (fun l i => placedAt (fun j => distance sched.slots[j].nextDue (s.tbValue t))
              (distance (s.slot i).record.due (s.tbValue t)) i l)
            (s.dueList t)) ∧
    (∀ fireNow : SlotId → Tick → State → State,
      groupArmPass fireNow g s = (List.finRange 32).foldl (actionArmed fireNow g) s) ∧
    ∀ (n : Nat) (i j : SlotId) (v : Tick) (atOnce : Bool) (b : BatchRecord) (outer : List BatchRecord),
      s.sched.batches = b :: outer → (s.slot i).record.kind = some .armGroup → (s.slot i).record.target = g →
      takes j = true → late j = true → (s.slot j).record.latePolicy = .fireNow → (s.slot j).record.kind = some .mark →
      (∀ k, k ≠ i → k ≠ j → takes k = false) →
      let begun := s.setBatches ({ b with chain := b.chain ++ [i] } :: outer)
      fire (n + 2) i v atOnce s =
        leaveChain i (entryFired i v atOnce .nothing
          (entryFired j (now j) true .nothing
            (begun.setSlot j (armedAs .armed (s.slot j).record.due (s.slot j)))))

/-- The words of a record as the host reads them: the header with the kind, GAP, the timebase, the flags and the slot or the
channel in their places, then a gap word when records were dropped before it, then the content words of the kind. A record of
which some words have been read has the rest of them still to read. -/
def Obligations.RecordWordsCarryTheirFields : Prop :=
  ∀ (gap read : Nat),
    let gapBit := if gap = 0 then 0 else 2048
    let gapWords : List Word := if gap = 0 then [] else [BitVec.ofNat 16 gap]
    let flag : Bool → Nat → Nat := fun b value => if b then value else 0
    (∀ (i : SlotId) (t : Timebase) (due : Tick) (f : FiredFlags), queuedWords ⟨.fired i t due f, gap, read⟩ =
      BitVec.ofNat 16 (4096 + gapBit + 512 * timebaseNumber t + flag f.last 256 + flag f.late 128 + flag f.cut 64
        + flag f.absorbed 32 + i.val) ::
        (gapWords ++ [BitVec.ofNat 16 (due.toNat / 65536), BitVec.ofNat 16 (due.toNat % 65536)])) ∧
    (∀ (i : SlotId) (t : Timebase) (byAction byGroup : Bool), queuedWords ⟨.refused i t byAction byGroup, gap, read⟩ =
      BitVec.ofNat 16 (8192 + gapBit + 512 * timebaseNumber t + flag byAction 256 + flag byGroup 128 + i.val) :: gapWords) ∧
    (∀ (i : SlotId) (t : Timebase), queuedWords ⟨.skipped i t, gap, read⟩ =
      BitVec.ofNat 16 (12288 + gapBit + 512 * timebaseNumber t + i.val) :: gapWords) ∧
    (∀ (c : Fin 4) (mean : Word) (limited : Bool), queuedWords ⟨.meas c mean none limited, gap, read⟩ =
      BitVec.ofNat 16 (16384 + gapBit + flag limited 128 + c.val) :: (gapWords ++ [mean])) ∧
    (∀ (c : Fin 4) (mean lo hi : Word) (limited : Bool), queuedWords ⟨.meas c mean (some (lo, hi)) limited, gap, read⟩ =
      BitVec.ofNat 16 (16384 + gapBit + 256 + flag limited 128 + c.val) :: (gapWords ++ [mean, lo, hi])) ∧
    (∀ c : Fin 4, queuedWords ⟨.stall c, gap, read⟩ = BitVec.ofNat 16 (20480 + gapBit + c.val) :: gapWords) ∧
    (∀ (c : Fin 4) (count : Word), queuedWords ⟨.closed c count, gap, read⟩ =
      BitVec.ofNat 16 (24576 + gapBit + c.val) :: (gapWords ++ [count])) ∧
    ∀ r : Report, unreadWords ⟨r, gap, 0⟩ = queuedWords ⟨r, gap, 0⟩ ∧
      unreadWords ⟨r, gap, read⟩ = (unreadWords ⟨r, gap, 0⟩).drop read

/-- What the host reads of the part: each register's word by the fields of its layout, as the last whole taking left them, and
the reads that have no side effect. STATUS shows its five items; PIN_LEVELS the levels driven and SCHED_LEVELS the scheduled
levels; NOTIFY_PENDING the flag of source s in bit s; CFG_DATA the item that CFG_INDEX names, every bit outside its layout 0.
IRQ_N is asserted exactly while some pending, enabled source stands above the current level. Where the work of a TB0 arrival
is left, which is the model's way of taking it (log 4), a read shows the state with that work finished. -/
def Obligations.ViewsShowTheState : Prop :=
  ∀ (s : State),
    let whole := settle s
    let index := whole.window.cfgIndex.toNat
    let data := registerWord 0x17#5 s
    let settings := whole.notify.settings
    (registerWord 0x01#5 s).toNat =
      (if whole.window.engine = none then 0 else 32768)
        + (match whole.inputs.safe with
          | .run => 0
          | .active => 8192
          | .cleared => 16384)
        + (if irqAsserted whole.notify then 4096 else 0)
        + (if whole.queue.records.flatMap unreadWords = [] then 0 else 2048)
        + ((List.finRange 32).filter fun i => decide ((whole.slot i).state = .free)).length ∧
    (irqAsserted s.notify = true ↔
      ∃ src level, sourcePending s.notify src = true ∧ sourceLevel s.notify src = some level ∧
        match s.notify.current with
        | .openLevel => True
        | .level now => now < level) ∧
    (∀ k : Fin 16, (registerWord 0x19#5 s).getLsbD k.val =
        (if h : k.val < 8 then decide (drivenLevel s ⟨k.val, h⟩ = .high) else false) ∧
      (registerWord 0x1A#5 s).getLsbD k.val =
        (if h : k.val < 8 then decide ((whole.line ⟨k.val, h⟩).scheduled = .high) else false) ∧
      (registerWord 0x1E#5 s).getLsbD k.val =
        allSources.any fun src => decide (sourceNumber src = k.val) && sourcePending whole.notify src) ∧
    (registerWord 0x00#5 s = 0x3208#16 ∧ registerWord 0x02#5 s = whole.window.command ∧
      (registerWord 0x03#5 s).toNat =
        4096 * (match whole.window.result.status with
          | .noResult => 0
          | .ok => 1
          | .late => 2
          | .badState => 3
          | .badField => 4
          | .badCommand => 5)
          + 256 * whole.window.result.code.toNat + whole.window.result.detail.toNat) ∧
    (∀ k : Fin 10, registerWord (BitVec.ofNat 5 (4 + k.val)) s = whole.window.staging[k]) ∧
    ((registerWord 0x14#5 s).toNat = whole.window.operandHi.toNat ∧ registerWord 0x15#5 s = whole.window.operandLo ∧
      (registerWord 0x16#5 s).toNat = index) ∧
    (QueueSound whole.queue → (registerWord 0x1C#5 s).toNat =
      256 * whole.queue.records.length + (whole.queue.records.flatMap unreadWords).length) ∧
    (index = 0x00 → data.toNat =
      (if whole.tb.enables.step then 4 else 0) + (if whole.tb.enables.edge then 2 else 0)
        + (if whole.tb.enables.clock then 1 else 0)) ∧
    (index = 0x01 → data.toNat = whole.tb.prescaler.toNat) ∧
    (index = 0x02 → data.toNat =
      256 * selectionNumber whole.tb.clearSelection + selectionNumber whole.tb.countSelection) ∧
    (∀ n : Fin 8, index = 0x08 + n.val → data.toNat =
      (if (whole.line n).pulsePolicy = .refuse then 4 else 0) + (if (whole.line n).safeLevel = .high then 2 else 0)
        + (if (whole.line n).polarity = .activeLow then 1 else 0)) ∧
    (∀ c : Fin 4,
      (index = 0x10 + c.val → data.toNat = setupNumber (whole.channelItems c).setup) ∧
      (index = 0x14 + c.val → data.toNat = (whole.channelItems c).timeoutHi.toNat) ∧
      (index = 0x18 + c.val → data = (whole.channelItems c).timeoutLo) ∧
      (index = 0x1C + c.val → data.toNat =
        (if (whole.channel c).limit then 16 else 0)
          + (match (whole.channel c).state with
            | .off => 0
            | .waitStart => 1
            | .timing => 2))) ∧
    (index = 0x20 → data.toNat =
      settingNumber settings[0] + 4 * settingNumber settings[1] + 16 * settingNumber settings[2]
        + 64 * settingNumber settings[3] + 256 * settingNumber settings[4] + 1024 * settingNumber settings[5]
        + 4096 * settingNumber settings[6] + 16384 * settingNumber settings[7]) ∧
    (index = 0x21 → data.toNat =
      settingNumber settings[8] + 4 * settingNumber settings[9] + 16 * settingNumber settings[10]) ∧
    (index = 0x22 → data = BitVec.ofNat 16 whole.queue.threshold) ∧
    (((3 ≤ index ∧ index ≤ 7) ∨ 0x23 ≤ index) → data = 0#16) ∧
    ∀ a : BitVec 5, a ∉ [0x0E#5, 0x10#5, 0x12#5, 0x1B#5, 0x1D#5] →
      (a = 0x17#5 → (cfgItemOfIndex s.window.cfgIndex).isSome = true) →
      windowRead a s = { s with readWord := registerWord a s }

/-! ### Invariants that every step keeps -/

/-- The claim stack followed by the current level stays strictly increasing from OPEN, so it never holds more than four
levels, and the flag of a disabled source stays clear. -/
def Obligations.NotificationsStaySound : Prop :=
  (∀ s t, ClaimStackSound s.notify → step s = .next t → ClaimStackSound t.notify) ∧
  (∀ s t, DisabledFlagsClear s.notify → step s = .next t → DisabledFlagsClear t.notify) ∧
  ∀ n, ClaimStackSound n → n.stack.length ≤ 4 ∧ (n.stack = [] ↔ n.current = .openLevel)

/-- The queue never holds more than 128 unread words, only its head may be partly read, and its counts keep their ranges. -/
def Obligations.ReportQueueStaysSound : Prop :=
  ∀ s t, QueueSound s.queue → step s = .next t → QueueSound t.queue

/-- SAFE is ACTIVE exactly while SAFE_N is asserted, and the safe holds are set on every line in ACTIVE and CLEARED and on
none in RUN. -/
def Obligations.SafeHoldsFollowTheSafeState : Prop :=
  ∀ s t, SafeStateSound s → step s = .next t → SafeStateSound t

/-- The prescaler phase stays below P, each channel's window stays within its bounds, and no channel is TIMING while TB0 is
disabled or SAFE is ACTIVE. -/
def Obligations.ClockAndChannelsStaySound : Prop :=
  (∀ s t, PhaseSound s.tb → step s = .next t → PhaseSound t.tb) ∧
  (∀ s t, (∀ c : Fin 4, WindowSound (s.channel c)) → step s = .next t → ∀ c : Fin 4, WindowSound (t.channel c)) ∧
  ∀ s t, NoIntervalWhileStopped s → step s = .next t → NoIntervalWhileStopped t

/-- A FREE slot is all zero, a STAGED slot has no run fields, a HELD slot has a hold and next due 0, no entry of the STEP
timebase has kind STEP, and the command record stays within its ranges. -/
def Obligations.SlotsAndEngineStaySound : Prop :=
  (∀ s t, (∀ i : SlotId, SlotSound (s.slot i)) → step s = .next t → ∀ i : SlotId, SlotSound (t.slot i)) ∧
  ∀ s t, EngineSound s.window → step s = .next t → EngineSound t.window

/-- A slot is ARMED exactly when it is once in the due list of its own timebase or is being fired, and each due list stays in
order of distance. -/
def Obligations.DueListsStaySound : Prop :=
  ∀ s t, SchedulerSound s → step s = .next t → SchedulerSound t

/-- The state after reset meets every invariant above. Its sampled levels, IN0 to IN3 low and SAFE_N released, are the model's
choice (log 8). -/
def Obligations.ResetStateMeetsTheInvariants : Prop :=
  ClaimStackSound State.reset.notify ∧ DisabledFlagsClear State.reset.notify ∧ QueueSound State.reset.queue ∧
  SafeStateSound State.reset ∧ PhaseSound State.reset.tb ∧ (∀ c : Fin 4, WindowSound (State.reset.channel c)) ∧
  NoIntervalWhileStopped State.reset ∧ (∀ i : SlotId, SlotSound (State.reset.slot i)) ∧ EngineSound State.reset.window ∧
  SchedulerSound State.reset ∧ Settled State.reset

end
end

