-- ==== Sys2Proof/Laws/State.lean ====
section
/-!
SUPPORT. One lemma for each field under each setter of State, so that no proof unfolds a record update, and the
read-after-write lemmas of a timebase, a slot, a due list, a line and a channel.
-/
namespace Sys2Proof.Machine

/-! ### All the items of a vector -/

@[simp] theorem mapItems_getElem {α : Type} {n : Nat} (f : α → α) (v : Vector α n) (i : Nat) (h : i < n) :
    (mapItems f v)[i] = f v[i] := by simp [mapItems]

theorem mapItems_eq_map {α : Type} {n : Nat} (f : α → α) (v : Vector α n) : mapItems f v = v.map f := by
  ext i h; simp

/-! ### The setters of the blocks -/

@[simp] theorem State.setReadWord_pending (s : State) (x : Word) : (s.setReadWord x).pending = s.pending := rfl
@[simp] theorem State.setReadWord_readWord (s : State) (x : Word) : (s.setReadWord x).readWord = x := rfl
@[simp] theorem State.setReadWord_tb (s : State) (x : Word) : (s.setReadWord x).tb = s.tb := rfl
@[simp] theorem State.setReadWord_sched (s : State) (x : Word) : (s.setReadWord x).sched = s.sched := rfl
@[simp] theorem State.setReadWord_notices (s : State) (x : Word) : (s.setReadWord x).notices = s.notices := rfl
@[simp] theorem State.setReadWord_lines (s : State) (x : Word) : (s.setReadWord x).lines = s.lines := rfl
@[simp] theorem State.setReadWord_inputs (s : State) (x : Word) : (s.setReadWord x).inputs = s.inputs := rfl
@[simp] theorem State.setReadWord_meas (s : State) (x : Word) : (s.setReadWord x).meas = s.meas := rfl
@[simp] theorem State.setReadWord_queue (s : State) (x : Word) : (s.setReadWord x).queue = s.queue := rfl
@[simp] theorem State.setReadWord_notify (s : State) (x : Word) : (s.setReadWord x).notify = s.notify := rfl
@[simp] theorem State.setReadWord_window (s : State) (x : Word) : (s.setReadWord x).window = s.window := rfl

@[simp] theorem State.setTb_pending (s : State) (x : TimebaseUnit) : (s.setTb x).pending = s.pending := rfl
@[simp] theorem State.setTb_readWord (s : State) (x : TimebaseUnit) : (s.setTb x).readWord = s.readWord := rfl
@[simp] theorem State.setTb_tb (s : State) (x : TimebaseUnit) : (s.setTb x).tb = x := rfl
@[simp] theorem State.setTb_sched (s : State) (x : TimebaseUnit) : (s.setTb x).sched = s.sched := rfl
@[simp] theorem State.setTb_notices (s : State) (x : TimebaseUnit) : (s.setTb x).notices = s.notices := rfl
@[simp] theorem State.setTb_lines (s : State) (x : TimebaseUnit) : (s.setTb x).lines = s.lines := rfl
@[simp] theorem State.setTb_inputs (s : State) (x : TimebaseUnit) : (s.setTb x).inputs = s.inputs := rfl
@[simp] theorem State.setTb_meas (s : State) (x : TimebaseUnit) : (s.setTb x).meas = s.meas := rfl
@[simp] theorem State.setTb_queue (s : State) (x : TimebaseUnit) : (s.setTb x).queue = s.queue := rfl
@[simp] theorem State.setTb_notify (s : State) (x : TimebaseUnit) : (s.setTb x).notify = s.notify := rfl
@[simp] theorem State.setTb_window (s : State) (x : TimebaseUnit) : (s.setTb x).window = s.window := rfl

@[simp] theorem State.setSched_pending (s : State) (x : Scheduler) : (s.setSched x).pending = s.pending := rfl
@[simp] theorem State.setSched_readWord (s : State) (x : Scheduler) : (s.setSched x).readWord = s.readWord := rfl
@[simp] theorem State.setSched_tb (s : State) (x : Scheduler) : (s.setSched x).tb = s.tb := rfl
@[simp] theorem State.setSched_sched (s : State) (x : Scheduler) : (s.setSched x).sched = x := rfl
@[simp] theorem State.setSched_notices (s : State) (x : Scheduler) : (s.setSched x).notices = s.notices := rfl
@[simp] theorem State.setSched_lines (s : State) (x : Scheduler) : (s.setSched x).lines = s.lines := rfl
@[simp] theorem State.setSched_inputs (s : State) (x : Scheduler) : (s.setSched x).inputs = s.inputs := rfl
@[simp] theorem State.setSched_meas (s : State) (x : Scheduler) : (s.setSched x).meas = s.meas := rfl
@[simp] theorem State.setSched_queue (s : State) (x : Scheduler) : (s.setSched x).queue = s.queue := rfl
@[simp] theorem State.setSched_notify (s : State) (x : Scheduler) : (s.setSched x).notify = s.notify := rfl
@[simp] theorem State.setSched_window (s : State) (x : Scheduler) : (s.setSched x).window = s.window := rfl

@[simp] theorem State.setNotices_pending (s : State) (x : ArrivalNotices) : (s.setNotices x).pending = s.pending := rfl
@[simp] theorem State.setNotices_readWord (s : State) (x : ArrivalNotices) : (s.setNotices x).readWord = s.readWord := rfl
@[simp] theorem State.setNotices_tb (s : State) (x : ArrivalNotices) : (s.setNotices x).tb = s.tb := rfl
@[simp] theorem State.setNotices_sched (s : State) (x : ArrivalNotices) : (s.setNotices x).sched = s.sched := rfl
@[simp] theorem State.setNotices_notices (s : State) (x : ArrivalNotices) : (s.setNotices x).notices = x := rfl
@[simp] theorem State.setNotices_lines (s : State) (x : ArrivalNotices) : (s.setNotices x).lines = s.lines := rfl
@[simp] theorem State.setNotices_inputs (s : State) (x : ArrivalNotices) : (s.setNotices x).inputs = s.inputs := rfl
@[simp] theorem State.setNotices_meas (s : State) (x : ArrivalNotices) : (s.setNotices x).meas = s.meas := rfl
@[simp] theorem State.setNotices_queue (s : State) (x : ArrivalNotices) : (s.setNotices x).queue = s.queue := rfl
@[simp] theorem State.setNotices_notify (s : State) (x : ArrivalNotices) : (s.setNotices x).notify = s.notify := rfl
@[simp] theorem State.setNotices_window (s : State) (x : ArrivalNotices) : (s.setNotices x).window = s.window := rfl

@[simp] theorem State.setLines_pending (s : State) (x : Vector Line 8) : (s.setLines x).pending = s.pending := rfl
@[simp] theorem State.setLines_readWord (s : State) (x : Vector Line 8) : (s.setLines x).readWord = s.readWord := rfl
@[simp] theorem State.setLines_tb (s : State) (x : Vector Line 8) : (s.setLines x).tb = s.tb := rfl
@[simp] theorem State.setLines_sched (s : State) (x : Vector Line 8) : (s.setLines x).sched = s.sched := rfl
@[simp] theorem State.setLines_notices (s : State) (x : Vector Line 8) : (s.setLines x).notices = s.notices := rfl
@[simp] theorem State.setLines_lines (s : State) (x : Vector Line 8) : (s.setLines x).lines = x := rfl
@[simp] theorem State.setLines_inputs (s : State) (x : Vector Line 8) : (s.setLines x).inputs = s.inputs := rfl
@[simp] theorem State.setLines_meas (s : State) (x : Vector Line 8) : (s.setLines x).meas = s.meas := rfl
@[simp] theorem State.setLines_queue (s : State) (x : Vector Line 8) : (s.setLines x).queue = s.queue := rfl
@[simp] theorem State.setLines_notify (s : State) (x : Vector Line 8) : (s.setLines x).notify = s.notify := rfl
@[simp] theorem State.setLines_window (s : State) (x : Vector Line 8) : (s.setLines x).window = s.window := rfl

@[simp] theorem State.setInputs_pending (s : State) (x : InputUnit) : (s.setInputs x).pending = s.pending := rfl
@[simp] theorem State.setInputs_readWord (s : State) (x : InputUnit) : (s.setInputs x).readWord = s.readWord := rfl
@[simp] theorem State.setInputs_tb (s : State) (x : InputUnit) : (s.setInputs x).tb = s.tb := rfl
@[simp] theorem State.setInputs_sched (s : State) (x : InputUnit) : (s.setInputs x).sched = s.sched := rfl
@[simp] theorem State.setInputs_notices (s : State) (x : InputUnit) : (s.setInputs x).notices = s.notices := rfl
@[simp] theorem State.setInputs_lines (s : State) (x : InputUnit) : (s.setInputs x).lines = s.lines := rfl
@[simp] theorem State.setInputs_inputs (s : State) (x : InputUnit) : (s.setInputs x).inputs = x := rfl
@[simp] theorem State.setInputs_meas (s : State) (x : InputUnit) : (s.setInputs x).meas = s.meas := rfl
@[simp] theorem State.setInputs_queue (s : State) (x : InputUnit) : (s.setInputs x).queue = s.queue := rfl
@[simp] theorem State.setInputs_notify (s : State) (x : InputUnit) : (s.setInputs x).notify = s.notify := rfl
@[simp] theorem State.setInputs_window (s : State) (x : InputUnit) : (s.setInputs x).window = s.window := rfl

@[simp] theorem State.setMeas_pending (s : State) (x : MeasUnit) : (s.setMeas x).pending = s.pending := rfl
@[simp] theorem State.setMeas_readWord (s : State) (x : MeasUnit) : (s.setMeas x).readWord = s.readWord := rfl
@[simp] theorem State.setMeas_tb (s : State) (x : MeasUnit) : (s.setMeas x).tb = s.tb := rfl
@[simp] theorem State.setMeas_sched (s : State) (x : MeasUnit) : (s.setMeas x).sched = s.sched := rfl
@[simp] theorem State.setMeas_notices (s : State) (x : MeasUnit) : (s.setMeas x).notices = s.notices := rfl
@[simp] theorem State.setMeas_lines (s : State) (x : MeasUnit) : (s.setMeas x).lines = s.lines := rfl
@[simp] theorem State.setMeas_inputs (s : State) (x : MeasUnit) : (s.setMeas x).inputs = s.inputs := rfl
@[simp] theorem State.setMeas_meas (s : State) (x : MeasUnit) : (s.setMeas x).meas = x := rfl
@[simp] theorem State.setMeas_queue (s : State) (x : MeasUnit) : (s.setMeas x).queue = s.queue := rfl
@[simp] theorem State.setMeas_notify (s : State) (x : MeasUnit) : (s.setMeas x).notify = s.notify := rfl
@[simp] theorem State.setMeas_window (s : State) (x : MeasUnit) : (s.setMeas x).window = s.window := rfl

@[simp] theorem State.setQueue_pending (s : State) (x : ReportQueue) : (s.setQueue x).pending = s.pending := rfl
@[simp] theorem State.setQueue_readWord (s : State) (x : ReportQueue) : (s.setQueue x).readWord = s.readWord := rfl
@[simp] theorem State.setQueue_tb (s : State) (x : ReportQueue) : (s.setQueue x).tb = s.tb := rfl
@[simp] theorem State.setQueue_sched (s : State) (x : ReportQueue) : (s.setQueue x).sched = s.sched := rfl
@[simp] theorem State.setQueue_notices (s : State) (x : ReportQueue) : (s.setQueue x).notices = s.notices := rfl
@[simp] theorem State.setQueue_lines (s : State) (x : ReportQueue) : (s.setQueue x).lines = s.lines := rfl
@[simp] theorem State.setQueue_inputs (s : State) (x : ReportQueue) : (s.setQueue x).inputs = s.inputs := rfl
@[simp] theorem State.setQueue_meas (s : State) (x : ReportQueue) : (s.setQueue x).meas = s.meas := rfl
@[simp] theorem State.setQueue_queue (s : State) (x : ReportQueue) : (s.setQueue x).queue = x := rfl
@[simp] theorem State.setQueue_notify (s : State) (x : ReportQueue) : (s.setQueue x).notify = s.notify := rfl
@[simp] theorem State.setQueue_window (s : State) (x : ReportQueue) : (s.setQueue x).window = s.window := rfl

@[simp] theorem State.setNotify_pending (s : State) (x : NotifyUnit) : (s.setNotify x).pending = s.pending := rfl
@[simp] theorem State.setNotify_readWord (s : State) (x : NotifyUnit) : (s.setNotify x).readWord = s.readWord := rfl
@[simp] theorem State.setNotify_tb (s : State) (x : NotifyUnit) : (s.setNotify x).tb = s.tb := rfl
@[simp] theorem State.setNotify_sched (s : State) (x : NotifyUnit) : (s.setNotify x).sched = s.sched := rfl
@[simp] theorem State.setNotify_notices (s : State) (x : NotifyUnit) : (s.setNotify x).notices = s.notices := rfl
@[simp] theorem State.setNotify_lines (s : State) (x : NotifyUnit) : (s.setNotify x).lines = s.lines := rfl
@[simp] theorem State.setNotify_inputs (s : State) (x : NotifyUnit) : (s.setNotify x).inputs = s.inputs := rfl
@[simp] theorem State.setNotify_meas (s : State) (x : NotifyUnit) : (s.setNotify x).meas = s.meas := rfl
@[simp] theorem State.setNotify_queue (s : State) (x : NotifyUnit) : (s.setNotify x).queue = s.queue := rfl
@[simp] theorem State.setNotify_notify (s : State) (x : NotifyUnit) : (s.setNotify x).notify = x := rfl
@[simp] theorem State.setNotify_window (s : State) (x : NotifyUnit) : (s.setNotify x).window = s.window := rfl

@[simp] theorem State.setWindow_pending (s : State) (x : Window) : (s.setWindow x).pending = s.pending := rfl
@[simp] theorem State.setWindow_readWord (s : State) (x : Window) : (s.setWindow x).readWord = s.readWord := rfl
@[simp] theorem State.setWindow_tb (s : State) (x : Window) : (s.setWindow x).tb = s.tb := rfl
@[simp] theorem State.setWindow_sched (s : State) (x : Window) : (s.setWindow x).sched = s.sched := rfl
@[simp] theorem State.setWindow_notices (s : State) (x : Window) : (s.setWindow x).notices = s.notices := rfl
@[simp] theorem State.setWindow_lines (s : State) (x : Window) : (s.setWindow x).lines = s.lines := rfl
@[simp] theorem State.setWindow_inputs (s : State) (x : Window) : (s.setWindow x).inputs = s.inputs := rfl
@[simp] theorem State.setWindow_meas (s : State) (x : Window) : (s.setWindow x).meas = s.meas := rfl
@[simp] theorem State.setWindow_queue (s : State) (x : Window) : (s.setWindow x).queue = s.queue := rfl
@[simp] theorem State.setWindow_notify (s : State) (x : Window) : (s.setWindow x).notify = s.notify := rfl
@[simp] theorem State.setWindow_window (s : State) (x : Window) : (s.setWindow x).window = x := rfl

/-! ### The setters of one thing: what they leave alone -/

@[simp] theorem State.setTbValue_pending (s : State) (t : Timebase) (v : Tick) : (s.setTbValue t v).pending = s.pending := rfl
@[simp] theorem State.setTbValue_readWord (s : State) (t : Timebase) (v : Tick) : (s.setTbValue t v).readWord = s.readWord := rfl
@[simp] theorem State.setTbValue_sched (s : State) (t : Timebase) (v : Tick) : (s.setTbValue t v).sched = s.sched := rfl
@[simp] theorem State.setTbValue_notices (s : State) (t : Timebase) (v : Tick) : (s.setTbValue t v).notices = s.notices := rfl
@[simp] theorem State.setTbValue_lines (s : State) (t : Timebase) (v : Tick) : (s.setTbValue t v).lines = s.lines := rfl
@[simp] theorem State.setTbValue_inputs (s : State) (t : Timebase) (v : Tick) : (s.setTbValue t v).inputs = s.inputs := rfl
@[simp] theorem State.setTbValue_meas (s : State) (t : Timebase) (v : Tick) : (s.setTbValue t v).meas = s.meas := rfl
@[simp] theorem State.setTbValue_queue (s : State) (t : Timebase) (v : Tick) : (s.setTbValue t v).queue = s.queue := rfl
@[simp] theorem State.setTbValue_notify (s : State) (t : Timebase) (v : Tick) : (s.setTbValue t v).notify = s.notify := rfl
@[simp] theorem State.setTbValue_window (s : State) (t : Timebase) (v : Tick) : (s.setTbValue t v).window = s.window := rfl

@[simp] theorem State.setSlot_pending (s : State) (i : SlotId) (sl : Slot) : (s.setSlot i sl).pending = s.pending := rfl
@[simp] theorem State.setSlot_readWord (s : State) (i : SlotId) (sl : Slot) : (s.setSlot i sl).readWord = s.readWord := rfl
@[simp] theorem State.setSlot_tb (s : State) (i : SlotId) (sl : Slot) : (s.setSlot i sl).tb = s.tb := rfl
@[simp] theorem State.setSlot_notices (s : State) (i : SlotId) (sl : Slot) : (s.setSlot i sl).notices = s.notices := rfl
@[simp] theorem State.setSlot_lines (s : State) (i : SlotId) (sl : Slot) : (s.setSlot i sl).lines = s.lines := rfl
@[simp] theorem State.setSlot_inputs (s : State) (i : SlotId) (sl : Slot) : (s.setSlot i sl).inputs = s.inputs := rfl
@[simp] theorem State.setSlot_meas (s : State) (i : SlotId) (sl : Slot) : (s.setSlot i sl).meas = s.meas := rfl
@[simp] theorem State.setSlot_queue (s : State) (i : SlotId) (sl : Slot) : (s.setSlot i sl).queue = s.queue := rfl
@[simp] theorem State.setSlot_notify (s : State) (i : SlotId) (sl : Slot) : (s.setSlot i sl).notify = s.notify := rfl
@[simp] theorem State.setSlot_window (s : State) (i : SlotId) (sl : Slot) : (s.setSlot i sl).window = s.window := rfl

@[simp] theorem State.setDueList_pending (s : State) (t : Timebase) (l : List SlotId) : (s.setDueList t l).pending = s.pending := rfl
@[simp] theorem State.setDueList_readWord (s : State) (t : Timebase) (l : List SlotId) : (s.setDueList t l).readWord = s.readWord := rfl
@[simp] theorem State.setDueList_tb (s : State) (t : Timebase) (l : List SlotId) : (s.setDueList t l).tb = s.tb := rfl
@[simp] theorem State.setDueList_notices (s : State) (t : Timebase) (l : List SlotId) : (s.setDueList t l).notices = s.notices := rfl
@[simp] theorem State.setDueList_lines (s : State) (t : Timebase) (l : List SlotId) : (s.setDueList t l).lines = s.lines := rfl
@[simp] theorem State.setDueList_inputs (s : State) (t : Timebase) (l : List SlotId) : (s.setDueList t l).inputs = s.inputs := rfl
@[simp] theorem State.setDueList_meas (s : State) (t : Timebase) (l : List SlotId) : (s.setDueList t l).meas = s.meas := rfl
@[simp] theorem State.setDueList_queue (s : State) (t : Timebase) (l : List SlotId) : (s.setDueList t l).queue = s.queue := rfl
@[simp] theorem State.setDueList_notify (s : State) (t : Timebase) (l : List SlotId) : (s.setDueList t l).notify = s.notify := rfl
@[simp] theorem State.setDueList_window (s : State) (t : Timebase) (l : List SlotId) : (s.setDueList t l).window = s.window := rfl

@[simp] theorem State.setBatches_pending (s : State) (bs : List BatchRecord) : (s.setBatches bs).pending = s.pending := rfl
@[simp] theorem State.setBatches_readWord (s : State) (bs : List BatchRecord) : (s.setBatches bs).readWord = s.readWord := rfl
@[simp] theorem State.setBatches_tb (s : State) (bs : List BatchRecord) : (s.setBatches bs).tb = s.tb := rfl
@[simp] theorem State.setBatches_notices (s : State) (bs : List BatchRecord) : (s.setBatches bs).notices = s.notices := rfl
@[simp] theorem State.setBatches_lines (s : State) (bs : List BatchRecord) : (s.setBatches bs).lines = s.lines := rfl
@[simp] theorem State.setBatches_inputs (s : State) (bs : List BatchRecord) : (s.setBatches bs).inputs = s.inputs := rfl
@[simp] theorem State.setBatches_meas (s : State) (bs : List BatchRecord) : (s.setBatches bs).meas = s.meas := rfl
@[simp] theorem State.setBatches_queue (s : State) (bs : List BatchRecord) : (s.setBatches bs).queue = s.queue := rfl
@[simp] theorem State.setBatches_notify (s : State) (bs : List BatchRecord) : (s.setBatches bs).notify = s.notify := rfl
@[simp] theorem State.setBatches_window (s : State) (bs : List BatchRecord) : (s.setBatches bs).window = s.window := rfl

@[simp] theorem State.setLine_pending (s : State) (n : Fin 8) (l : Line) : (s.setLine n l).pending = s.pending := rfl
@[simp] theorem State.setLine_readWord (s : State) (n : Fin 8) (l : Line) : (s.setLine n l).readWord = s.readWord := rfl
@[simp] theorem State.setLine_tb (s : State) (n : Fin 8) (l : Line) : (s.setLine n l).tb = s.tb := rfl
@[simp] theorem State.setLine_sched (s : State) (n : Fin 8) (l : Line) : (s.setLine n l).sched = s.sched := rfl
@[simp] theorem State.setLine_notices (s : State) (n : Fin 8) (l : Line) : (s.setLine n l).notices = s.notices := rfl
@[simp] theorem State.setLine_inputs (s : State) (n : Fin 8) (l : Line) : (s.setLine n l).inputs = s.inputs := rfl
@[simp] theorem State.setLine_meas (s : State) (n : Fin 8) (l : Line) : (s.setLine n l).meas = s.meas := rfl
@[simp] theorem State.setLine_queue (s : State) (n : Fin 8) (l : Line) : (s.setLine n l).queue = s.queue := rfl
@[simp] theorem State.setLine_notify (s : State) (n : Fin 8) (l : Line) : (s.setLine n l).notify = s.notify := rfl
@[simp] theorem State.setLine_window (s : State) (n : Fin 8) (l : Line) : (s.setLine n l).window = s.window := rfl

@[simp] theorem State.setChannel_pending (s : State) (c : Fin 4) (ch : Channel) : (s.setChannel c ch).pending = s.pending := rfl
@[simp] theorem State.setChannel_readWord (s : State) (c : Fin 4) (ch : Channel) : (s.setChannel c ch).readWord = s.readWord := rfl
@[simp] theorem State.setChannel_tb (s : State) (c : Fin 4) (ch : Channel) : (s.setChannel c ch).tb = s.tb := rfl
@[simp] theorem State.setChannel_sched (s : State) (c : Fin 4) (ch : Channel) : (s.setChannel c ch).sched = s.sched := rfl
@[simp] theorem State.setChannel_notices (s : State) (c : Fin 4) (ch : Channel) : (s.setChannel c ch).notices = s.notices := rfl
@[simp] theorem State.setChannel_lines (s : State) (c : Fin 4) (ch : Channel) : (s.setChannel c ch).lines = s.lines := rfl
@[simp] theorem State.setChannel_inputs (s : State) (c : Fin 4) (ch : Channel) : (s.setChannel c ch).inputs = s.inputs := rfl
@[simp] theorem State.setChannel_queue (s : State) (c : Fin 4) (ch : Channel) : (s.setChannel c ch).queue = s.queue := rfl
@[simp] theorem State.setChannel_notify (s : State) (c : Fin 4) (ch : Channel) : (s.setChannel c ch).notify = s.notify := rfl
@[simp] theorem State.setChannel_window (s : State) (c : Fin 4) (ch : Channel) : (s.setChannel c ch).window = s.window := rfl

@[simp] theorem State.setChannelItems_pending (s : State) (c : Fin 4) (x : ChannelItems) : (s.setChannelItems c x).pending = s.pending := rfl
@[simp] theorem State.setChannelItems_readWord (s : State) (c : Fin 4) (x : ChannelItems) : (s.setChannelItems c x).readWord = s.readWord := rfl
@[simp] theorem State.setChannelItems_tb (s : State) (c : Fin 4) (x : ChannelItems) : (s.setChannelItems c x).tb = s.tb := rfl
@[simp] theorem State.setChannelItems_sched (s : State) (c : Fin 4) (x : ChannelItems) : (s.setChannelItems c x).sched = s.sched := rfl
@[simp] theorem State.setChannelItems_notices (s : State) (c : Fin 4) (x : ChannelItems) : (s.setChannelItems c x).notices = s.notices := rfl
@[simp] theorem State.setChannelItems_lines (s : State) (c : Fin 4) (x : ChannelItems) : (s.setChannelItems c x).lines = s.lines := rfl
@[simp] theorem State.setChannelItems_inputs (s : State) (c : Fin 4) (x : ChannelItems) : (s.setChannelItems c x).inputs = s.inputs := rfl
@[simp] theorem State.setChannelItems_queue (s : State) (c : Fin 4) (x : ChannelItems) : (s.setChannelItems c x).queue = s.queue := rfl
@[simp] theorem State.setChannelItems_notify (s : State) (c : Fin 4) (x : ChannelItems) : (s.setChannelItems c x).notify = s.notify := rfl
@[simp] theorem State.setChannelItems_window (s : State) (c : Fin 4) (x : ChannelItems) : (s.setChannelItems c x).window = s.window := rfl

/-! ### What one thing reads under a setter of another block -/

@[simp] theorem State.tbValue_setReadWord (s : State) (x : Word) (u : Timebase) : (s.setReadWord x).tbValue u = s.tbValue u := rfl
@[simp] theorem State.tbValue_setSched (s : State) (x : Scheduler) (u : Timebase) : (s.setSched x).tbValue u = s.tbValue u := rfl
@[simp] theorem State.tbValue_setNotices (s : State) (x : ArrivalNotices) (u : Timebase) : (s.setNotices x).tbValue u = s.tbValue u := rfl
@[simp] theorem State.tbValue_setLines (s : State) (x : Vector Line 8) (u : Timebase) : (s.setLines x).tbValue u = s.tbValue u := rfl
@[simp] theorem State.tbValue_setInputs (s : State) (x : InputUnit) (u : Timebase) : (s.setInputs x).tbValue u = s.tbValue u := rfl
@[simp] theorem State.tbValue_setMeas (s : State) (x : MeasUnit) (u : Timebase) : (s.setMeas x).tbValue u = s.tbValue u := rfl
@[simp] theorem State.tbValue_setQueue (s : State) (x : ReportQueue) (u : Timebase) : (s.setQueue x).tbValue u = s.tbValue u := rfl
@[simp] theorem State.tbValue_setNotify (s : State) (x : NotifyUnit) (u : Timebase) : (s.setNotify x).tbValue u = s.tbValue u := rfl
@[simp] theorem State.tbValue_setWindow (s : State) (x : Window) (u : Timebase) : (s.setWindow x).tbValue u = s.tbValue u := rfl
@[simp] theorem State.tbValue_setSlot (s : State) (i : SlotId) (sl : Slot) (u : Timebase) : (s.setSlot i sl).tbValue u = s.tbValue u := rfl
@[simp] theorem State.tbValue_setDueList (s : State) (t : Timebase) (l : List SlotId) (u : Timebase) : (s.setDueList t l).tbValue u = s.tbValue u := rfl
@[simp] theorem State.tbValue_setBatches (s : State) (bs : List BatchRecord) (u : Timebase) : (s.setBatches bs).tbValue u = s.tbValue u := rfl
@[simp] theorem State.tbValue_setLine (s : State) (n : Fin 8) (l : Line) (u : Timebase) : (s.setLine n l).tbValue u = s.tbValue u := rfl
@[simp] theorem State.tbValue_setChannel (s : State) (c : Fin 4) (ch : Channel) (u : Timebase) : (s.setChannel c ch).tbValue u = s.tbValue u := rfl
@[simp] theorem State.tbValue_setChannelItems (s : State) (c : Fin 4) (x : ChannelItems) (u : Timebase) : (s.setChannelItems c x).tbValue u = s.tbValue u := rfl

@[simp] theorem State.slot_setReadWord (s : State) (x : Word) (j : SlotId) : (s.setReadWord x).slot j = s.slot j := rfl
@[simp] theorem State.slot_setTb (s : State) (x : TimebaseUnit) (j : SlotId) : (s.setTb x).slot j = s.slot j := rfl
@[simp] theorem State.slot_setNotices (s : State) (x : ArrivalNotices) (j : SlotId) : (s.setNotices x).slot j = s.slot j := rfl
@[simp] theorem State.slot_setLines (s : State) (x : Vector Line 8) (j : SlotId) : (s.setLines x).slot j = s.slot j := rfl
@[simp] theorem State.slot_setInputs (s : State) (x : InputUnit) (j : SlotId) : (s.setInputs x).slot j = s.slot j := rfl
@[simp] theorem State.slot_setMeas (s : State) (x : MeasUnit) (j : SlotId) : (s.setMeas x).slot j = s.slot j := rfl
@[simp] theorem State.slot_setQueue (s : State) (x : ReportQueue) (j : SlotId) : (s.setQueue x).slot j = s.slot j := rfl
@[simp] theorem State.slot_setNotify (s : State) (x : NotifyUnit) (j : SlotId) : (s.setNotify x).slot j = s.slot j := rfl
@[simp] theorem State.slot_setWindow (s : State) (x : Window) (j : SlotId) : (s.setWindow x).slot j = s.slot j := rfl
@[simp] theorem State.slot_setTbValue (s : State) (t : Timebase) (v : Tick) (j : SlotId) : (s.setTbValue t v).slot j = s.slot j := rfl
@[simp] theorem State.slot_setLine (s : State) (n : Fin 8) (l : Line) (j : SlotId) : (s.setLine n l).slot j = s.slot j := rfl
@[simp] theorem State.slot_setChannel (s : State) (c : Fin 4) (ch : Channel) (j : SlotId) : (s.setChannel c ch).slot j = s.slot j := rfl
@[simp] theorem State.slot_setChannelItems (s : State) (c : Fin 4) (x : ChannelItems) (j : SlotId) : (s.setChannelItems c x).slot j = s.slot j := rfl

@[simp] theorem State.dueList_setReadWord (s : State) (x : Word) (u : Timebase) : (s.setReadWord x).dueList u = s.dueList u := rfl
@[simp] theorem State.dueList_setTb (s : State) (x : TimebaseUnit) (u : Timebase) : (s.setTb x).dueList u = s.dueList u := rfl
@[simp] theorem State.dueList_setNotices (s : State) (x : ArrivalNotices) (u : Timebase) : (s.setNotices x).dueList u = s.dueList u := rfl
@[simp] theorem State.dueList_setLines (s : State) (x : Vector Line 8) (u : Timebase) : (s.setLines x).dueList u = s.dueList u := rfl
@[simp] theorem State.dueList_setInputs (s : State) (x : InputUnit) (u : Timebase) : (s.setInputs x).dueList u = s.dueList u := rfl
@[simp] theorem State.dueList_setMeas (s : State) (x : MeasUnit) (u : Timebase) : (s.setMeas x).dueList u = s.dueList u := rfl
@[simp] theorem State.dueList_setQueue (s : State) (x : ReportQueue) (u : Timebase) : (s.setQueue x).dueList u = s.dueList u := rfl
@[simp] theorem State.dueList_setNotify (s : State) (x : NotifyUnit) (u : Timebase) : (s.setNotify x).dueList u = s.dueList u := rfl
@[simp] theorem State.dueList_setWindow (s : State) (x : Window) (u : Timebase) : (s.setWindow x).dueList u = s.dueList u := rfl
@[simp] theorem State.dueList_setTbValue (s : State) (t : Timebase) (v : Tick) (u : Timebase) : (s.setTbValue t v).dueList u = s.dueList u := rfl
@[simp] theorem State.dueList_setLine (s : State) (n : Fin 8) (l : Line) (u : Timebase) : (s.setLine n l).dueList u = s.dueList u := rfl
@[simp] theorem State.dueList_setChannel (s : State) (c : Fin 4) (ch : Channel) (u : Timebase) : (s.setChannel c ch).dueList u = s.dueList u := rfl
@[simp] theorem State.dueList_setChannelItems (s : State) (c : Fin 4) (x : ChannelItems) (u : Timebase) : (s.setChannelItems c x).dueList u = s.dueList u := rfl

@[simp] theorem State.line_setReadWord (s : State) (x : Word) (m : Fin 8) : (s.setReadWord x).line m = s.line m := rfl
@[simp] theorem State.line_setTb (s : State) (x : TimebaseUnit) (m : Fin 8) : (s.setTb x).line m = s.line m := rfl
@[simp] theorem State.line_setSched (s : State) (x : Scheduler) (m : Fin 8) : (s.setSched x).line m = s.line m := rfl
@[simp] theorem State.line_setNotices (s : State) (x : ArrivalNotices) (m : Fin 8) : (s.setNotices x).line m = s.line m := rfl
@[simp] theorem State.line_setInputs (s : State) (x : InputUnit) (m : Fin 8) : (s.setInputs x).line m = s.line m := rfl
@[simp] theorem State.line_setMeas (s : State) (x : MeasUnit) (m : Fin 8) : (s.setMeas x).line m = s.line m := rfl
@[simp] theorem State.line_setQueue (s : State) (x : ReportQueue) (m : Fin 8) : (s.setQueue x).line m = s.line m := rfl
@[simp] theorem State.line_setNotify (s : State) (x : NotifyUnit) (m : Fin 8) : (s.setNotify x).line m = s.line m := rfl
@[simp] theorem State.line_setWindow (s : State) (x : Window) (m : Fin 8) : (s.setWindow x).line m = s.line m := rfl
@[simp] theorem State.line_setTbValue (s : State) (t : Timebase) (v : Tick) (m : Fin 8) : (s.setTbValue t v).line m = s.line m := rfl
@[simp] theorem State.line_setSlot (s : State) (i : SlotId) (sl : Slot) (m : Fin 8) : (s.setSlot i sl).line m = s.line m := rfl
@[simp] theorem State.line_setDueList (s : State) (t : Timebase) (l : List SlotId) (m : Fin 8) : (s.setDueList t l).line m = s.line m := rfl
@[simp] theorem State.line_setBatches (s : State) (bs : List BatchRecord) (m : Fin 8) : (s.setBatches bs).line m = s.line m := rfl
@[simp] theorem State.line_setChannel (s : State) (c : Fin 4) (ch : Channel) (m : Fin 8) : (s.setChannel c ch).line m = s.line m := rfl
@[simp] theorem State.line_setChannelItems (s : State) (c : Fin 4) (x : ChannelItems) (m : Fin 8) : (s.setChannelItems c x).line m = s.line m := rfl

@[simp] theorem State.channel_setReadWord (s : State) (x : Word) (d : Fin 4) : (s.setReadWord x).channel d = s.channel d := rfl
@[simp] theorem State.channel_setTb (s : State) (x : TimebaseUnit) (d : Fin 4) : (s.setTb x).channel d = s.channel d := rfl
@[simp] theorem State.channel_setSched (s : State) (x : Scheduler) (d : Fin 4) : (s.setSched x).channel d = s.channel d := rfl
@[simp] theorem State.channel_setNotices (s : State) (x : ArrivalNotices) (d : Fin 4) : (s.setNotices x).channel d = s.channel d := rfl
@[simp] theorem State.channel_setLines (s : State) (x : Vector Line 8) (d : Fin 4) : (s.setLines x).channel d = s.channel d := rfl
@[simp] theorem State.channel_setInputs (s : State) (x : InputUnit) (d : Fin 4) : (s.setInputs x).channel d = s.channel d := rfl
@[simp] theorem State.channel_setQueue (s : State) (x : ReportQueue) (d : Fin 4) : (s.setQueue x).channel d = s.channel d := rfl
@[simp] theorem State.channel_setNotify (s : State) (x : NotifyUnit) (d : Fin 4) : (s.setNotify x).channel d = s.channel d := rfl
@[simp] theorem State.channel_setWindow (s : State) (x : Window) (d : Fin 4) : (s.setWindow x).channel d = s.channel d := rfl
@[simp] theorem State.channel_setTbValue (s : State) (t : Timebase) (v : Tick) (d : Fin 4) : (s.setTbValue t v).channel d = s.channel d := rfl
@[simp] theorem State.channel_setSlot (s : State) (i : SlotId) (sl : Slot) (d : Fin 4) : (s.setSlot i sl).channel d = s.channel d := rfl
@[simp] theorem State.channel_setDueList (s : State) (t : Timebase) (l : List SlotId) (d : Fin 4) : (s.setDueList t l).channel d = s.channel d := rfl
@[simp] theorem State.channel_setBatches (s : State) (bs : List BatchRecord) (d : Fin 4) : (s.setBatches bs).channel d = s.channel d := rfl
@[simp] theorem State.channel_setLine (s : State) (n : Fin 8) (l : Line) (d : Fin 4) : (s.setLine n l).channel d = s.channel d := rfl

@[simp] theorem State.channelItems_setReadWord (s : State) (x : Word) (d : Fin 4) : (s.setReadWord x).channelItems d = s.channelItems d := rfl
@[simp] theorem State.channelItems_setTb (s : State) (x : TimebaseUnit) (d : Fin 4) : (s.setTb x).channelItems d = s.channelItems d := rfl
@[simp] theorem State.channelItems_setSched (s : State) (x : Scheduler) (d : Fin 4) : (s.setSched x).channelItems d = s.channelItems d := rfl
@[simp] theorem State.channelItems_setNotices (s : State) (x : ArrivalNotices) (d : Fin 4) : (s.setNotices x).channelItems d = s.channelItems d := rfl
@[simp] theorem State.channelItems_setLines (s : State) (x : Vector Line 8) (d : Fin 4) : (s.setLines x).channelItems d = s.channelItems d := rfl
@[simp] theorem State.channelItems_setInputs (s : State) (x : InputUnit) (d : Fin 4) : (s.setInputs x).channelItems d = s.channelItems d := rfl
@[simp] theorem State.channelItems_setQueue (s : State) (x : ReportQueue) (d : Fin 4) : (s.setQueue x).channelItems d = s.channelItems d := rfl
@[simp] theorem State.channelItems_setNotify (s : State) (x : NotifyUnit) (d : Fin 4) : (s.setNotify x).channelItems d = s.channelItems d := rfl
@[simp] theorem State.channelItems_setWindow (s : State) (x : Window) (d : Fin 4) : (s.setWindow x).channelItems d = s.channelItems d := rfl
@[simp] theorem State.channelItems_setTbValue (s : State) (t : Timebase) (v : Tick) (d : Fin 4) : (s.setTbValue t v).channelItems d = s.channelItems d := rfl
@[simp] theorem State.channelItems_setSlot (s : State) (i : SlotId) (sl : Slot) (d : Fin 4) : (s.setSlot i sl).channelItems d = s.channelItems d := rfl
@[simp] theorem State.channelItems_setDueList (s : State) (t : Timebase) (l : List SlotId) (d : Fin 4) : (s.setDueList t l).channelItems d = s.channelItems d := rfl
@[simp] theorem State.channelItems_setBatches (s : State) (bs : List BatchRecord) (d : Fin 4) : (s.setBatches bs).channelItems d = s.channelItems d := rfl
@[simp] theorem State.channelItems_setLine (s : State) (n : Fin 8) (l : Line) (d : Fin 4) : (s.setLine n l).channelItems d = s.channelItems d := rfl

/-! ### Read after write -/

@[simp] theorem PerTb.get_set_same {α : Type} (p : PerTb α) (t : Timebase) (x : α) : (p.set t x).get t = x := by
  cases t <;> rfl

theorem PerTb.get_set_other {α : Type} (p : PerTb α) (t u : Timebase) (x : α) (h : u ≠ t) :
    (p.set t x).get u = p.get u := by
  cases t <;> cases u <;> first | rfl | exact absurd rfl h

@[simp] theorem State.tbValue_setTbValue (s : State) (t : Timebase) (v : Tick) : (s.setTbValue t v).tbValue t = v :=
  PerTb.get_set_same _ _ _

theorem State.tbValue_setTbValue_other (s : State) (t u : Timebase) (v : Tick) (h : u ≠ t) :
    (s.setTbValue t v).tbValue u = s.tbValue u :=
  PerTb.get_set_other _ _ _ _ h

@[simp] theorem State.setTbValue_tb (s : State) (t : Timebase) (v : Tick) :
    (s.setTbValue t v).tb = { s.tb with values := s.tb.values.set t v } := rfl

theorem State.slot_setSlot (s : State) (i j : SlotId) (sl : Slot) :
    (s.setSlot i sl).slot j = if i = j then sl else s.slot j := by
  simp [State.slot, State.setSlot, Vector.getElem_set, Fin.ext_iff]

@[simp] theorem State.slot_setSlot_same (s : State) (i : SlotId) (sl : Slot) : (s.setSlot i sl).slot i = sl := by
  simp [State.slot_setSlot]

theorem State.slot_setSlot_other (s : State) (i j : SlotId) (sl : Slot) (h : i ≠ j) :
    (s.setSlot i sl).slot j = s.slot j := by
  simp [State.slot_setSlot, h]

@[simp] theorem State.dueList_setSlot (s : State) (i : SlotId) (sl : Slot) (t : Timebase) :
    (s.setSlot i sl).dueList t = s.dueList t := rfl

@[simp] theorem State.setSlot_batches (s : State) (i : SlotId) (sl : Slot) :
    (s.setSlot i sl).sched.batches = s.sched.batches := rfl

@[simp] theorem State.dueList_setDueList (s : State) (t : Timebase) (l : List SlotId) : (s.setDueList t l).dueList t = l :=
  PerTb.get_set_same _ _ _

theorem State.dueList_setDueList_other (s : State) (t u : Timebase) (l : List SlotId) (h : u ≠ t) :
    (s.setDueList t l).dueList u = s.dueList u :=
  PerTb.get_set_other _ _ _ _ h

@[simp] theorem State.slot_setDueList (s : State) (t : Timebase) (l : List SlotId) (i : SlotId) :
    (s.setDueList t l).slot i = s.slot i := rfl

@[simp] theorem State.setDueList_batches (s : State) (t : Timebase) (l : List SlotId) :
    (s.setDueList t l).sched.batches = s.sched.batches := rfl

@[simp] theorem State.slot_setBatches (s : State) (bs : List BatchRecord) (i : SlotId) :
    (s.setBatches bs).slot i = s.slot i := rfl

@[simp] theorem State.dueList_setBatches (s : State) (bs : List BatchRecord) (t : Timebase) :
    (s.setBatches bs).dueList t = s.dueList t := rfl

@[simp] theorem State.batches_setBatches (s : State) (bs : List BatchRecord) :
    (s.setBatches bs).sched.batches = bs := rfl

theorem State.line_setLine (s : State) (n m : Fin 8) (l : Line) :
    (s.setLine n l).line m = if n = m then l else s.line m := by
  simp [State.line, State.setLine, Vector.getElem_set, Fin.ext_iff]

theorem State.channel_setChannel (s : State) (c d : Fin 4) (ch : Channel) :
    (s.setChannel c ch).channel d = if c = d then ch else s.channel d := by
  simp [State.channel, State.setChannel, Vector.getElem_set, Fin.ext_iff]

@[simp] theorem State.channel_setChannel_same (s : State) (c : Fin 4) (ch : Channel) :
    (s.setChannel c ch).channel c = ch := by
  simp [State.channel_setChannel]

@[simp] theorem State.channelItems_setChannel (s : State) (c d : Fin 4) (ch : Channel) :
    (s.setChannel c ch).channelItems d = s.channelItems d := rfl

theorem State.channelItems_setChannelItems (s : State) (c d : Fin 4) (x : ChannelItems) :
    (s.setChannelItems c x).channelItems d = if c = d then x else s.channelItems d := by
  simp [State.channelItems, State.setChannelItems, Vector.getElem_set, Fin.ext_iff]

@[simp] theorem State.channel_setChannelItems (s : State) (c d : Fin 4) (x : ChannelItems) :
    (s.setChannelItems c x).channel d = s.channel d := rfl

end Sys2Proof.Machine
end

