-- ==== Sys2Proof/Laws/Changes.lean ====
section
/-!
SUPPORT. What a command can do, said once: every command but power-on reset is a run of the elementary changes below. A
property that each elementary change keeps is therefore kept by every command (Laws/Moves.lean).
-/
namespace Sys2Proof.Machine

open Sys2Proof.Safety

/-- One elementary change that the part makes inside a command: the work of the scheduler, the timebases, the lines and the
channels. It leaves the window, the inputs, the configuration and the claims alone. The slot and channel changes say what
soundness they keep. -/
inductive Change : State → State → Prop where
  | notices (s : State) (n : ArrivalNotices) : Change s (s.setNotices n)
  | tbValue (s : State) (t : Timebase) (v : Tick) : Change s (s.setTbValue t v)
  | phase (s : State) (p : Nat) (h : p < prescalerPeriods s.tb.prescaler) : Change s (setPhase p s)
  | slot (s : State) (i : SlotId) (sl : Slot) (h : SlotSound (s.slot i) → SlotSound sl) : Change s (s.setSlot i sl)
  | dueList (s : State) (t : Timebase) (l : List SlotId) : Change s (s.setDueList t l)
  | batches (s : State) (bs : List BatchRecord) : Change s (s.setBatches bs)
  | lines (s : State) (v : Vector Line 8) (h : ∀ n : Fin 8, v[n].safeHold = (s.line n).safeHold) : Change s (s.setLines v)
  | channel (s : State) (c : Fin 4) (ch : Channel) (hw : WindowSound (s.channel c) → WindowSound ch)
      (ht : ch.state = .timing → (s.channel c).state = .timing ∨ clockCounts s = true) : Change s (s.setChannel c ch)
  | interrupt (s : State) : Change s (interruptIntervals s)
  | append (s : State) (r : Report) (h : recordFits s.queue r = true) : Change s (s.setQueue (queueAppend s.queue r))
  | drop (s : State) : Change s (s.setQueue (queueDrop s.queue))
  | cause (s : State) (src : Source) : Change s (raiseSource src s)

/-- A run of elementary changes. -/
abbrev Changes : State → State → Prop := Relation.ReflTransGen Change

theorem Change.run {s t : State} (h : Change s t) : Changes s t := Relation.ReflTransGen.single h

theorem Changes.refl (s : State) : Changes s s := Relation.ReflTransGen.refl

theorem Changes.foldl {α : Type} (f : State → α → State) (h : ∀ s x, Changes s (f s x)) (l : List α) (s : State) :
    Changes s (l.foldl f s) := by
  induction l generalizing s with
  | nil => exact .refl s
  | cons x rest ih => exact (h s x).trans (ih _)

/-- What no work of the part changes: the queue of commands, the word on the data lines, the inputs and the SAFE state, the
window, the timebase enables and configuration, the channel items, the threshold, and of the notification controller all
but the pending flags. -/
structure KeepsAccess (s t : State) : Prop where
  pending : t.pending = s.pending
  readWord : t.readWord = s.readWord
  inputs : t.inputs = s.inputs
  window : t.window = s.window
  enables : t.tb.enables = s.tb.enables
  snapshots : t.tb.snapshots = s.tb.snapshots
  prescaler : t.tb.prescaler = s.tb.prescaler
  countSelection : t.tb.countSelection = s.tb.countSelection
  clearSelection : t.tb.clearSelection = s.tb.clearSelection
  items : t.meas.items = s.meas.items
  threshold : t.queue.threshold = s.queue.threshold
  settings : t.notify.settings = s.notify.settings
  current : t.notify.current = s.notify.current
  stack : t.notify.stack = s.notify.stack
  faults : t.notify.faults = s.notify.faults

theorem notifyCause_settings (src : Source) (n : NotifyUnit) : (notifyCause src n).settings = n.settings := by
  unfold notifyCause; split <;> rfl

theorem notifyCause_current (src : Source) (n : NotifyUnit) : (notifyCause src n).current = n.current := by
  unfold notifyCause; split <;> rfl

theorem notifyCause_stack (src : Source) (n : NotifyUnit) : (notifyCause src n).stack = n.stack := by
  unfold notifyCause; split <;> rfl

theorem notifyCause_faults (src : Source) (n : NotifyUnit) : (notifyCause src n).faults = n.faults := by
  unfold notifyCause; split <;> rfl

theorem Change.keeps {s t : State} (h : Change s t) : KeepsAccess s t := by
  cases h
  case cause src =>
    exact ⟨rfl, rfl, rfl, rfl, rfl, rfl, rfl, rfl, rfl, rfl, rfl, notifyCause_settings _ _, notifyCause_current _ _,
      notifyCause_stack _ _, notifyCause_faults _ _⟩
  all_goals exact ⟨rfl, rfl, rfl, rfl, rfl, rfl, rfl, rfl, rfl, rfl, rfl, rfl, rfl, rfl, rfl⟩

theorem KeepsAccess.refl (s : State) : KeepsAccess s s :=
  ⟨rfl, rfl, rfl, rfl, rfl, rfl, rfl, rfl, rfl, rfl, rfl, rfl, rfl, rfl, rfl⟩

theorem KeepsAccess.trans {s t u : State} (h : KeepsAccess s t) (k : KeepsAccess t u) : KeepsAccess s u :=
  ⟨k.1.trans h.1, k.2.trans h.2, k.3.trans h.3, k.4.trans h.4, k.5.trans h.5, k.6.trans h.6, k.7.trans h.7,
    k.8.trans h.8, k.9.trans h.9, k.10.trans h.10, k.11.trans h.11, k.12.trans h.12, k.13.trans h.13, k.14.trans h.14,
    k.15.trans h.15⟩

/-- A run of elementary changes leaves all that alone. -/
theorem Changes.keeps {s t : State} (h : Changes s t) : KeepsAccess s t := by
  induction h with
  | refl => exact .refl s
  | tail _ hc ih => exact ih.trans hc.keeps

/-! ### Notifications and records -/

theorem raiseSource_changes (src : Source) (s : State) : Changes s (raiseSource src s) := (Change.cause s src).run

theorem handReport_changes (r : Report) (s : State) : Changes s (handReport r s) := by
  unfold handReport
  split
  · rename_i hf
    dsimp only
    split
    · exact (Change.append s r hf).run.tail (.cause _ _)
    · exact (Change.append s r hf).run
  · exact (Change.drop s).run.tail (.cause _ _)

theorem handChannelReport_changes (c : Fin 4) (r : Report) (s : State) : Changes s (handChannelReport c r s) :=
  (raiseSource_changes _ s).trans (handReport_changes r _)

/-! ### Slots and lists -/

theorem slotSound_empty : SlotSound Slot.empty := by decide

theorem slotSound_retired {sl : Slot} (h : SlotSound sl) : SlotSound (retiredSlot sl) := by
  unfold retiredSlot
  split
  · exact ⟨by simp, by simp, by simp, h.2.2.2⟩
  · exact slotSound_empty

theorem slotSound_armed {sl : Slot} (h : SlotSound sl) (d : Tick) : SlotSound (armedSlot .armed d sl) :=
  ⟨by simp [armedSlot], by simp [armedSlot], by simp [armedSlot], h.2.2.2⟩

theorem slotSound_held {sl : Slot} (h : SlotSound sl) (hh : sl.record.holdEdge ≠ .absent) :
    SlotSound (armedSlot .held 0#24 sl) :=
  ⟨by simp [armedSlot], by simp [armedSlot], fun _ => ⟨rfl, hh⟩, h.2.2.2⟩

theorem joinList_changes (i : SlotId) (s : State) : Changes s (joinList i s) := (Change.dueList s _ _).run

theorem leaveList_changes (i : SlotId) (s : State) : Changes s (leaveList i s) := (Change.dueList s _ _).run

theorem retireSlot_changes (i : SlotId) (s : State) : Changes s (retireSlot i s) :=
  (Change.slot s i _ slotSound_retired).run

theorem cancelEntry_changes (i : SlotId) (s : State) : Changes s (cancelEntry i s) :=
  (leaveList_changes i s).trans (retireSlot_changes i _)

theorem cancelMembers_changes (g : BitVec 3) (s : State) : Changes s (cancelMembers g s) :=
  Changes.foldl _ (fun s i => by split; exacts [cancelEntry_changes i s, .refl s]) _ s

theorem skipEntry_changes (t : Timebase) (i : SlotId) (s : State) : Changes s (skipEntry t i s) :=
  (retireSlot_changes i s).trans (handReport_changes _ _)

theorem skipCheck_changes (t : Timebase) (s : State) : Changes s (skipCheck t s) :=
  (Change.dueList s _ _).run.trans (Changes.foldl _ (fun s i => skipEntry_changes t i s) _ _)

theorem releaseEntry_changes (i : SlotId) (s : State) : Changes s (releaseEntry i s) := by
  refine Relation.ReflTransGen.trans (Change.slot s i _ ?_).run (joinList_changes i _)
  exact fun h => ⟨by simp, by simp, by simp, h.2.2.2⟩

theorem releaseHeld_changes (line : Fin 4) (e : Edge) (s : State) : Changes s (releaseHeld line e s) :=
  Changes.foldl _ (fun s i => by split; exacts [releaseEntry_changes i s, .refl s]) _ s

/-! ### Lines -/

theorem setLine_changes (n : Fin 8) (l : Line) (s : State) (h : l.safeHold = (s.line n).safeHold) :
    Changes s (s.setLine n l) := by
  refine (Change.lines s _ fun m => ?_).run
  have h' := congrArg Line.safeHold (State.line_setLine s n m l)
  by_cases hm : n = m
  · subst hm; rw [if_pos rfl, h] at h'; exact h'
  · rw [if_neg hm] at h'; exact h'

theorem mapLines_changes (f : Line → Line) (h : ∀ l, (f l).safeHold = l.safeHold) (s : State) :
    Changes s (s.setLines (mapItems f s.lines)) :=
  (Change.lines s _ (fun n => by simp [State.line, h])).run

theorem levelAction_safeHold (f : Level → Level) (l : Line) : (levelAction f l).safeHold = l.safeHold := rfl

theorem pulseAction_safeHold (p : Pulse) (l : Line) : (pulseAction p l).safeHold = l.safeHold := by
  unfold pulseAction
  split
  · rfl
  · split <;> rfl

theorem endPulsesAt_changes (t : Timebase) (v : Tick) (s : State) : Changes s (endPulsesAt t v s) :=
  mapLines_changes _ (fun l => by split <;> rfl) s

theorem endPulsesOnLoad_changes (t : Timebase) (s : State) : Changes s (endPulsesOnLoad t s) :=
  mapLines_changes _ (fun l => by split <;> rfl) s

theorem writeForce_changes (w : Word) (s : State) : Changes s (writeForce w s) :=
  (Change.lines s _ (fun n => by simp [State.line])).run

theorem writeLineConfig_changes (n : Fin 8) (w : Word) (s : State) : Changes s (writeLineConfig n w s) :=
  setLine_changes n _ s rfl

/-! ### Channels -/

theorem windowSound_clear (ch : Channel) : WindowSound (clearWindow ch) := by
  refine ⟨?_, ?_, ?_, ?_, ?_⟩ <;> simp [clearWindow]

theorem openChannel_changes (c : Fin 4) (s : State) : Changes s (openChannel c s) := by
  unfold openChannel
  split
  · exact (Change.channel s c _ (fun _ => windowSound_clear _) (by simp [clearWindow])).run
  · exact .refl s

theorem closeChannel_changes (c : Fin 4) (s : State) : Changes s (closeChannel c s) := by
  unfold closeChannel
  split
  · exact .refl s
  · exact (Change.channel s c _ (fun _ => windowSound_clear _) (by simp [clearWindow])).run.trans
      (handChannelReport_changes c _ _)

theorem stallChannel_changes (v : Tick) (c : Fin 4) (s : State) : Changes s (stallChannel v c s) := by
  unfold stallChannel
  split
  · refine Relation.ReflTransGen.trans (b := s.setChannel c _) (Change.channel s c _ ?_ ?_).run (handChannelReport_changes c _ _)
    · exact fun h => h
    · simp
  · exact .refl s

theorem stallCheck_changes (v : Tick) (s : State) : Changes s (stallCheck v s) :=
  Changes.foldl _ (fun s c => stallChannel_changes v c s) _ s

/-- A channel's window with a sample in it: sound up to being full. -/
theorem windowSound_sample {ch : Channel} (h : WindowSound ch) (x : Nat) (hx : x ≤ 16777215)
    (hf : windowFull (addSample x ch) = false) : WindowSound (addSample x ch) := by
  obtain ⟨h1, h2, h3, h4, h5⟩ := h
  have hf := Nat.lt_of_not_le (of_decide_eq_false hf)
  refine ⟨hf, ?_, ?_, ?_, ?_⟩
  · simp only [addSample]; omega
  · simp only [addSample]; split
    · exact hx
    · exact Nat.max_le.mpr ⟨h3, hx⟩
  · intro _
    simp only [addSample]
    split
    · exact le_refl _
    · have := h4 (by omega)
      have h6 : Nat.min ch.min x ≤ ch.min := Nat.min_le_left _ _
      have h7 : ch.max ≤ Nat.max ch.max x := Nat.le_max_left _ _
      omega
  · simp [addSample]

theorem settleWindow_changes (c : Fin 4) (ch : Channel) (s : State)
    (hw : WindowSound (s.channel c) → windowFull ch = false → WindowSound ch)
    (ht : ch.state = .timing → (s.channel c).state = .timing ∨ clockCounts s = true) : Changes s (settleWindow c ch s) := by
  unfold settleWindow
  split
  · refine Relation.ReflTransGen.trans (Change.channel s c _ ?_ ?_).run (handChannelReport_changes c _ _)
    · exact fun _ => windowSound_clear _
    · exact ht
  · rename_i hf
    exact (Change.channel s c ch (fun h => hw h (by simpa using hf)) ht).run

theorem acceptEdge_changes (c : Fin 4) (e : Edge) (v : Tick) (s : State) (hc : clockCounts s = true) :
    Changes s (acceptEdge c e v s) := by
  unfold acceptEdge
  dsimp only
  split
  · exact .refl s
  · split
    · refine (Change.channel s c _ ?_ (fun _ => .inr hc)).run
      exact fun h => h
    · exact .refl s
  · split
    · refine settleWindow_changes c _ s (fun h hf => ?_) (fun _ => .inr hc)
      have hx : (v - (s.channel c).start).toNat ≤ 16777215 := by have := (v - (s.channel c).start).isLt; omega
      have := windowSound_sample h _ hx (by split at hf <;> exact hf)
      split <;> exact this
    · exact .refl s

theorem channelEdge_changes (line : Fin 4) (e : Edge) (c : Fin 4) (s : State) (hs : s.inputs.safe ≠ .active) :
    Changes s (channelEdge line e c s) := by
  unfold channelEdge
  split
  · rename_i h
    exact acceptEdge_changes c e _ s (by simp [clockCounts, h.2.2, hs])
  · exact .refl s

theorem channelsEdge_changes (line : Fin 4) (e : Edge) (s : State) (hs : s.inputs.safe ≠ .active) :
    Changes s (channelsEdge line e s) := by
  unfold channelsEdge
  generalize allChannels = l
  induction l generalizing s with
  | nil => exact .refl s
  | cons c rest ih =>
    have h1 := channelEdge_changes line e c s hs
    exact h1.trans (ih _ (by rw [h1.keeps.inputs]; exact hs))

/-! ### Loads and arm steps -/

theorem interruptIntervals_changes (s : State) : Changes s (interruptIntervals s) := (Change.interrupt s).run

theorem loadTimebase_changes (t : Timebase) (v : Tick) (s : State) : Changes s (loadTimebase t v s) := by
  have h := ((Change.tbValue s t v).run.trans (skipCheck_changes t _)).trans (endPulsesOnLoad_changes t _)
  unfold loadTimebase
  dsimp only
  split
  · exact h.trans (interruptIntervals_changes _)
  · exact h

theorem armStep_changes (origin : ArmOrigin) (fireNow : SlotId → Tick → State → State)
    (hf : ∀ i v s, Changes s (fireNow i v s)) (i : SlotId) (s : State) : Changes s (armStep origin fireNow i s) := by
  unfold armStep
  dsimp only
  split
  · exact .refl s
  · rename_i ho
    have hh : (s.slot i).record.holdEdge ≠ .absent := by
      intro h
      simp [armOutcome, h] at ho
      split at ho <;> [skip; split at ho <;> [skip; split at ho]] <;> simp at ho
    exact (Change.slot s i _ (fun h => slotSound_held h hh)).run
  · exact (Change.slot s i _ (fun h => slotSound_armed h _)).run.trans (joinList_changes i _)
  · exact handReport_changes _ s
  · exact (Change.slot s i _ (fun h => slotSound_armed h _)).run.trans (hf _ _ _)

/-! ### Firing -/

theorem updateBatch_changes (f : BatchRecord → BatchRecord) (s : State) : Changes s (updateBatch f s) := by
  unfold updateBatch
  split
  · exact .refl s
  · exact (Change.batches s _).run

theorem fireLoad_changes (r : Record) (s : State) : Changes s (fireLoad r s) := by
  unfold fireLoad
  split
  · exact .refl s
  · split
    · exact updateBatch_changes _ s
    · exact loadTimebase_changes _ _ s

theorem fireAction_changes (groupArm : BitVec 3 → State → State) (hg : ∀ g s, Changes s (groupArm g s)) (r : Record)
    (v : Tick) (s : State) : Changes s (fireAction groupArm r v s).1 := by
  unfold fireAction
  split
  · exact .refl s
  · exact setLine_changes _ _ s rfl
  · exact setLine_changes _ _ s rfl
  · exact setLine_changes _ _ s rfl
  · exact setLine_changes _ _ s (pulseAction_safeHold _ _)
  · exact fireLoad_changes r s
  · unfold fireStep; split
    · exact .refl s
    · exact updateBatch_changes _ s
  · exact hg _ s
  · exact cancelMembers_changes _ s
  · exact .refl s
  · exact openChannel_changes _ s
  · exact closeChannel_changes _ s

theorem fireReport_changes (i : SlotId) (v : Tick) (late : Bool) (a : Answer) (s : State) :
    Changes s (fireReport i v late a s) := by
  unfold fireReport
  dsimp only
  split
  · exact handReport_changes _ s
  · exact .refl s

theorem fireNotify_changes (i : SlotId) (s : State) : Changes s (fireNotify i s) := by
  unfold fireNotify
  split
  · exact raiseSource_changes _ s
  · exact .refl s

theorem fireSettle_changes (i : SlotId) (v : Tick) (s : State) : Changes s (fireSettle i v s) := by
  unfold fireSettle
  dsimp only
  split
  · refine (Change.slot s i _ (fun h => ?_)).run
    unfold retiredSlot
    split
    · exact ⟨by simp, by simp, by simp, h.2.2.2⟩
    · exact slotSound_empty
  · refine (Change.slot s i _ (fun h => ?_)).run.trans (joinList_changes i _)
    exact ⟨by simp [rearmedSlot], by simp [rearmedSlot], by simp [rearmedSlot], h.2.2.2⟩

theorem fire_changes (n : Nat) (i : SlotId) (v : Tick) (late : Bool) (s : State) : Changes s (fire n i v late s) := by
  induction n generalizing i v late s with
  | zero => exact .refl s
  | succ n ih =>
    refine ((((updateBatch_changes _ s).trans (fireAction_changes _ (fun g s => ?_) _ _ _)).trans
      (fireReport_changes _ _ _ _ _)).trans (fireNotify_changes _ _)).trans
      ((fireSettle_changes _ _ _).trans (updateBatch_changes _ _))
    exact Changes.foldl _ (fun s j => by
      split
      · exact armStep_changes .action _ (fun j w s => ih j w true s) j s
      · exact .refl s) _ s

theorem fireWaiting_changes (v : Tick) (l : List SlotId) (s : State) : Changes s (fireWaiting v l s) := by
  induction l generalizing s with
  | nil => exact .refl s
  | cons i rest ih => exact ((updateBatch_changes _ s).trans (fire_changes _ i v false _)).trans (ih _)

theorem applyDeferred_changes (stepRequest : State → State) (hs : ∀ s, Changes s (stepRequest s)) (t : Timebase)
    (l : List Deferred) (s : State) : Changes s (applyDeferred stepRequest t l s) := by
  induction l generalizing s with
  | nil => exact .refl s
  | cons op rest ih =>
    cases op with
    | step => exact ((updateBatch_changes _ s).trans (hs _)).trans (ih _)
    | load v => exact ((updateBatch_changes _ s).trans (loadTimebase_changes t v _)).trans (ih _)

theorem applyCollected_changes (stepRequest : State → State) (hs : ∀ s, Changes s (stepRequest s)) (t : Timebase)
    (s : State) : Changes s (applyCollected stepRequest t s) := by
  unfold applyCollected
  split
  · exact .refl s
  · exact applyDeferred_changes stepRequest hs t _ s

theorem finishBatch_changes (stepRequest : State → State) (hs : ∀ s, Changes s (stepRequest s)) (s : State) :
    Changes s (finishBatch stepRequest s) := by
  unfold finishBatch
  split
  · exact .refl s
  · exact ((fireWaiting_changes _ _ s).trans (applyCollected_changes stepRequest hs _ _)).tail (.batches _ _)

theorem beginArrival_changes (t : Timebase) (s : State) : Changes s (beginArrival t s) := by
  have h : Changes s (raiseWrap t (s.tbValue t + 1#24) (s.setTbValue t (s.tbValue t + 1#24))) := by
    unfold raiseWrap
    split
    · exact (Change.tbValue s _ _).run.trans (raiseSource_changes _ _)
    · exact (Change.tbValue s _ _).run
  exact (h.tail (.dueList _ _ _)).tail (.batches _ _)

theorem wholeArrival_changes (stepRequest : State → State) (hs : ∀ s, Changes s (stepRequest s)) (t : Timebase)
    (s : State) : Changes s (wholeArrival stepRequest t s) :=
  ((beginArrival_changes t s).trans (endPulsesAt_changes t _ _)).trans (finishBatch_changes stepRequest hs _)

theorem stepRequest_changes (s : State) : Changes s (stepRequest s) := by
  unfold stepRequest
  split
  · exact wholeArrival_changes id Changes.refl _ s
  · exact .refl s

theorem hostFireNow_changes (i : SlotId) (v : Tick) (s : State) : Changes s (hostFireNow i v s) :=
  (((Change.batches s _).run.trans (fire_changes _ i v true _)).trans
    (applyCollected_changes _ stepRequest_changes _ _)).tail (.batches _ _)

theorem takeLineNotice_changes (s : State) : Changes s (takeLineNotice s) := by
  unfold takeLineNotice
  split
  · exact .refl s
  · exact (Change.notices s _).run.trans (endPulsesAt_changes _ _ _)

theorem takeStallNotice_changes (s : State) : Changes s (takeStallNotice s) := by
  unfold takeStallNotice
  split
  · exact .refl s
  · exact (Change.notices s _).run.trans (stallCheck_changes _ _)

theorem takeBatchNotice_changes (s : State) : Changes s (takeBatchNotice s) :=
  (takeLineNotice_changes s).trans
    (Changes.foldl _ (fun s _ => finishBatch_changes _ stepRequest_changes s) _ _)

theorem settle_changes (s : State) : Changes s (settle s) :=
  (takeBatchNotice_changes s).trans (takeStallNotice_changes _)

theorem prescalerPeriods_pos (code : Byte) : 0 < prescalerPeriods code := by
  unfold prescalerPeriods
  split
  · omega
  · rename_i h
    exact Nat.pos_of_ne_zero fun h0 => h (BitVec.eq_of_toNat_eq (by simpa using h0))

theorem completePhase_changes (s : State) : Changes s (completePhase s) := by
  unfold completePhase
  split
  · exact ((Change.phase s 0 (prescalerPeriods_pos _)).run.trans (beginArrival_changes _ _)).tail (.notices _ _)
  · exact .refl s

theorem clockPeriod_changes (s : State) : Changes s (clockPeriod s) := by
  unfold clockPeriod
  split
  · split
    · rename_i h
      exact (Change.phase s _ h).run
    · exact completePhase_changes s
  · exact .refl s

end Sys2Proof.Machine
end

