-- ==== Sys2Proof/Laws/Moves.lean ====
section
/-!
SUPPORT. Every command but power-on reset is a run of the moves below: the part's elementary changes (Laws/Changes.lean),
the effects of host accesses and completions, and the SAFE transitions. A property that each move keeps is kept by every
command.
-/
namespace Sys2Proof.Machine

open Sys2Proof.Safety

/-- One elementary effect of a host access, of a step of a host command or of an input line, or a change the part makes. None
changes the SAFE state or a safe hold. -/
inductive Access : State → State → Prop where
  | change {s t : State} (h : Change s t) : Access s t
  | readWord (s : State) (w : Word) : Access s (s.setReadWord w)
  | lastLevel (s : State) (line : Fin 4) (level : Level) : Access s (setLastLevel line level s)
  | snapshot (s : State) (t : Timebase) : Access s (takeSnapshot t s)
  | enables (s : State) (w : Word) : Access s (writeEnables w s)
  | prescaler (s : State) (w : Word) : Access s (writePrescaler w s)
  | selections (s : State) (w : Word) : Access s (writeSelections w s)
  | channelItems (s : State) (c : Fin 4) (x : ChannelItems) : Access s (s.setChannelItems c x)
  | pop (s : State) : Access s (popReport s)
  | flush (s : State) : Access s (s.setQueue { s.queue with records := [], lost := 0 })
  | threshold (s : State) (w : Word) : Access s (s.setQueue { s.queue with threshold := thresholdOfWord w })
  | faults (s : State) (f : FaultBits) : Access s (s.setNotify { s.notify with faults := f })
  | claim (s : State) : Access s (s.setNotify (notifyClaim s.notify))
  | complete (s : State) (top : Handling) (rest : List Handling) (h : s.notify.stack = top :: rest) :
      Access s (s.setNotify { s.notify with current := top, stack := rest })
  | level (s : State) (k : Fin 11) (setting : NotifySetting) : Access s (s.setNotify (notifySetLevel k setting s.notify))
  | window (s : State) (w : Window) (h : EngineSound s.window → EngineSound w) : Access s (s.setWindow w)

/-- A run of accesses. -/
abbrev Accesses : State → State → Prop := Relation.ReflTransGen Access

theorem Access.run {s t : State} (h : Access s t) : Accesses s t := Relation.ReflTransGen.single h

theorem Accesses.refl (s : State) : Accesses s s := Relation.ReflTransGen.refl

theorem Changes.accesses {s t : State} (h : Changes s t) : Accesses s t := by
  induction h with
  | refl => exact .refl s
  | tail _ hc ih => exact ih.tail (.change hc)

theorem Access.pending_safe {s t : State} (h : Access s t) :
    t.pending = s.pending ∧ t.inputs.safe = s.inputs.safe ∧ t.inputs.safeN = s.inputs.safeN := by
  cases h
  case change h => exact ⟨h.keeps.pending, by rw [h.keeps.inputs], by rw [h.keeps.inputs]⟩
  case enables => unfold writeEnables; dsimp only; split <;> exact ⟨rfl, rfl, rfl⟩
  all_goals exact ⟨rfl, rfl, rfl⟩

/-- No run of accesses touches the queue of commands or the SAFE state. -/
theorem Accesses.pending_safe {s t : State} (h : Accesses s t) :
    t.pending = s.pending ∧ t.inputs.safe = s.inputs.safe ∧ t.inputs.safeN = s.inputs.safeN := by
  induction h with
  | refl => exact ⟨rfl, rfl, rfl⟩
  | tail _ hc ih =>
    have := hc.pending_safe
    exact ⟨this.1.trans ih.1, this.2.1.trans ih.2.1, this.2.2.trans ih.2.2⟩

/-! ### The command engine -/

theorem raiseFault_accesses (f : FaultBits → FaultBits) (s : State) : Accesses s (raiseFault f s) :=
  (Access.faults s (f s.notify.faults)).run.tail (.change (.cause _ .fault))

theorem completeCommand_accesses (status : CommandStatus) (code : BitVec 4) (detail : Byte) (s : State) :
    Accesses s (completeCommand status code detail s) := by
  refine Relation.ReflTransGen.tail (Access.window s _ ?_).run (.change (.cause _ .cmdDone))
  exact fun _ => trivial

theorem finishCommand_accesses (rec : CommandRecord) (status : CommandStatus) (detail : Byte) (s : State) :
    Accesses s (finishCommand rec status detail s) := completeCommand_accesses _ _ _ s

theorem finishAfter {s t : State} (h : Changes s t) (rec : CommandRecord) (status : CommandStatus) (detail : Byte) :
    Accesses s (finishCommand rec status detail t) :=
  h.accesses.trans (finishCommand_accesses _ _ _ t)

theorem commandWrite_accesses (w : Word) (s : State) : Accesses s (commandWrite w s) := by
  unfold commandWrite
  split
  · exact raiseFault_accesses _ s
  · split
    · refine Relation.ReflTransGen.trans (Access.window s _ ?_).run (completeCommand_accesses _ _ _ _)
      exact fun h => h
    · split
      · rename_i c _ ha
        refine (Access.window s _ ?_).run
        intro _
        cases c <;> first | exact ⟨ha, trivial⟩ | exact ⟨ha, by omega, by omega⟩
      · refine Relation.ReflTransGen.trans (Access.window s _ ?_).run (completeCommand_accesses _ _ _ _)
        exact fun h => h

theorem armGroupWork_accesses (rec : CommandRecord) (next count : Nat) (s : State)
    (hj : s.window.engine = some rec) (hr : rec.job = .armGroup next count) :
    Accesses s (armGroupWork rec next count s) := by
  unfold armGroupWork
  split
  · rename_i hn
    have hg : Changes s (groupStepWork (argumentGroup rec.argument) ⟨next, hn⟩ s) := by
      unfold groupStepWork
      split
      · exact armStep_changes _ _ hostFireNow_changes _ s
      · exact .refl s
    dsimp only
    split
    · rename_i hn'
      refine Relation.ReflTransGen.tail hg.accesses (Access.window _ _ ?_)
      rw [hg.keeps.window]
      intro h
      simp only [EngineSound, hj, hr, jobCode] at h
      refine ⟨h.1, hn', ?_⟩
      split <;> omega
    · exact finishAfter hg _ _ _
  · exact finishCommand_accesses _ _ _ s

/-- A step or the completion of a command other than RELEASE_LINES and ENGINE_RESET. -/
theorem commandWork_accesses (rec : CommandRecord) (s : State) (he : s.window.engine = some rec)
    (h1 : rec.job ≠ .engineReset) (h2 : rec.job ≠ .releaseLines) : Accesses s (commandWork rec s) := by
  unfold commandWork
  split
  · unfold writeSlotWork
    dsimp only
    split
    · exact finishCommand_accesses _ _ _ s
    · split
      · exact finishCommand_accesses _ _ _ s
      · rename_i captured _ _ r hv
        refine Relation.ReflTransGen.trans (Access.change (Change.slot s _ _ ?_)).run (finishCommand_accesses _ _ _ _)
        intro _
        refine ⟨by simp, by simp, by simp, ?_⟩
        unfold validRecord at hv
        split at hv
        · split at hv
          · rename_i hc
            simp only [Bool.and_eq_true, Bool.not_eq_true', Bool.and_eq_false_iff] at hc
            obtain rfl := Option.some.inj hv
            rintro ⟨h1, h2⟩
            simp only [Option.some.injEq] at h1 h2
            have := hc.1.2
            simp [h1, h2] at this
          · cases hv
        · cases hv
  · refine Relation.ReflTransGen.trans (Access.window s _ ?_).run (finishCommand_accesses _ _ _ _)
    exact fun h => h
  · unfold freeSlotWork
    dsimp only
    split
    · exact finishCommand_accesses _ _ _ s
    · exact finishCommand_accesses _ _ _ s
    · exact finishCommand_accesses _ _ _ s
    · exact finishAfter (Change.slot s _ _ (fun _ => slotSound_empty)).run _ _ _
    · exact finishAfter (Change.slot s _ _ (fun _ => slotSound_empty)).run _ _ _
  · exact finishAfter (armStep_changes _ _ hostFireNow_changes _ s) _ _ _
  · rename_i hr
    exact armGroupWork_accesses rec _ _ s he hr
  · unfold cancelWork
    dsimp only
    split
    · exact finishAfter (cancelEntry_changes _ s) _ _ _
    · exact finishCommand_accesses _ _ _ s
  · exact finishAfter (cancelMembers_changes _ s) _ _ _
  · unfold loadTbWork
    split
    · exact finishCommand_accesses _ _ _ s
    · exact finishAfter (loadTimebase_changes _ _ s) _ _ _
  · unfold measStartWork
    dsimp only
    split
    · exact finishAfter (openChannel_changes _ s) _ _ _
    · exact finishCommand_accesses _ _ _ s
  · unfold measStopWork
    dsimp only
    split
    · exact finishCommand_accesses _ _ _ s
    · exact finishAfter (closeChannel_changes _ s) _ _ _
  · exact (Access.flush s).run.trans (finishCommand_accesses _ _ _ _)
  · rename_i h; exact absurd h h2
  · rename_i h; exact absurd h h1

/-! ### The window -/

theorem setLevels_accesses (l : List (Fin 11 × NotifySetting)) (s : State) :
    Accesses s (s.setNotify (l.foldl (fun n p => notifySetLevel p.1 p.2 n) s.notify)) := by
  induction l generalizing s with
  | nil => exact .refl s
  | cons p rest ih => exact (Access.level s p.1 p.2).run.trans (ih (s.setNotify (notifySetLevel p.1 p.2 s.notify)))

theorem writeEnables_accesses (w : Word) (s : State) : Accesses s (writeEnables w s) := (Access.enables s w).run

theorem writeCfgItem_accesses (item : CfgItem) (w : Word) (s : State) : Accesses s (writeCfgItem item w s) := by
  unfold writeCfgItem
  split
  · exact (Access.enables s w).run
  · exact (Access.prescaler s w).run
  · exact (Access.selections s w).run
  · exact (writeLineConfig_changes _ w s).accesses
  · exact (Access.channelItems s _ _).run
  · exact (Access.channelItems s _ _).run
  · exact (Access.channelItems s _ _).run
  · refine (Access.change (Change.channel s _ _ ?_ ?_)).run
    · exact fun h => h
    · exact fun h => .inl h
  · have := setLevels_accesses ((List.finRange 8).map fun k => (⟨k.val, by omega⟩, settingOfCode (w.extractLsb' (2 * k.val) 2))) s
    rw [List.foldl_map] at this
    exact this
  · have := setLevels_accesses ((List.finRange 3).map fun k => (⟨8 + k.val, by omega⟩, settingOfCode (w.extractLsb' (2 * k.val) 2))) s
    rw [List.foldl_map] at this
    exact this
  · exact (Access.threshold s w).run

theorem cfgDataWrite_accesses (w : Word) (s : State) : Accesses s (cfgDataWrite w s) := by
  unfold cfgDataWrite
  split
  · exact raiseFault_accesses _ s
  · exact writeCfgItem_accesses _ w s

theorem readEffect_accesses (a : BitVec 5) (s : State) : Accesses s (readEffect a s) := by
  unfold readEffect
  split
  · exact (Access.snapshot s _).run
  · exact (Access.snapshot s _).run
  · exact (Access.snapshot s _).run
  · unfold readCfgData
    split
    · exact raiseFault_accesses _ s
    · exact .refl s
  · exact (Access.pop s).run
  · exact (Access.claim s).run
  · exact .refl s

theorem windowRead_accesses (a : BitVec 5) (s : State) : Accesses s (windowRead a s) :=
  (Access.readWord s _).run.trans (readEffect_accesses a _)

theorem stageWrite_accesses (k : Fin 10) (w : Word) (s : State) : Accesses s (stageWrite k w s) := by
  unfold stageWrite
  split
  · exact raiseFault_accesses _ s
  · refine (Access.window s _ ?_).run
    exact fun h => h

theorem completeNotice_accesses (s : State) : Accesses s (completeNotice s) := by
  unfold completeNotice notifyComplete
  split
  · exact raiseFault_accesses _ s
  · rename_i h
    exact (Access.complete s _ _ h).run

theorem windowWrite_accesses (a : BitVec 5) (w : Word) (s : State) : Accesses s (windowWrite a w s) := by
  unfold windowWrite
  split
  · exact commandWrite_accesses w s
  · refine (Access.window s _ ?_).run
    exact fun h => h
  · refine (Access.window s _ ?_).run
    exact fun h => h
  · refine (Access.window s _ ?_).run
    exact fun h => h
  · exact cfgDataWrite_accesses w s
  · exact (writeForce_changes w s).accesses
  · exact completeNotice_accesses s
  · exact (Access.faults s _).run
  · split
    · exact stageWrite_accesses _ w s
    · exact .refl s

/-! ### Inputs -/

theorem edgeTimebase_changes (line : Fin 4) (e : Edge) (s : State) : Changes s (edgeTimebase line e s) := by
  unfold edgeTimebase
  split
  · exact loadTimebase_changes _ _ s
  · split
    · exact wholeArrival_changes _ stepRequest_changes _ s
    · exact .refl s

theorem takeClaim_accesses (c : Claim) (s : State) : Accesses s (takeClaim c s) := by
  unfold takeClaim
  split
  · split
    · exact Changes.accesses ((clockPeriod_changes s).trans ((takeStallNotice_changes _).trans (settle_changes _)))
    · exact Changes.accesses ((clockPeriod_changes s).trans (settle_changes _))
  · unfold commandStepInside
    split
    · exact .refl s
    · rename_i rec he
      split
      case h_1 => exact .refl s
      case h_2 => exact .refl s
      all_goals
        rename_i hr
        exact commandWork_accesses rec s he (by simp [hr]) (by simp [hr])
  · exact windowWrite_accesses _ _ s
  · exact windowRead_accesses _ s

theorem takeClaims_accesses (cs : List Claim) (s : State) : Accesses s (takeClaims cs s) := by
  unfold takeClaims
  induction cs generalizing s with
  | nil => exact .refl s
  | cons c rest ih => exact (takeClaim_accesses c s).trans (ih _)

theorem inputSeen_accesses (line : Fin 4) (level : Level) (c1 c2 : List Claim) (s : State) :
    Accesses s (inputSeen line level c1 c2 s) := by
  unfold inputSeen
  split
  · exact .refl s
  · split
    · exact (Access.lastLevel s line level).run
    · rename_i hs
      have h := (((Access.lastLevel s line level).run.trans (edgeTimebase_changes line (edgeTo level) _).accesses).trans
        ((takeClaims_accesses c1 _).trans (releaseHeld_changes line (edgeTo level) _).accesses)).trans
        (takeClaims_accesses c2 _)
      exact h.trans (channelsEdge_changes line (edgeTo level) _ (by rw [(Accesses.pending_safe h).2.1]; exact hs)).accesses

/-! ### Whole commands -/

/-- One access, or one of the changes of the SAFE state. -/
inductive Move : State → State → Prop where
  | access {s t : State} (h : Access s t) : Move s t
  | safeAsserted (s : State) : Move s (safeAsserted s)
  | safeReleased (s : State) : Move s (safeReleased s)
  | released (s : State) (h : s.inputs.safe = .cleared) :
      Move s (releaseHolds (s.setInputs { s.inputs with safe := .run }))
  | engineReset (s : State) : Move s (engineReset s)

/-- A run of moves. -/
abbrev Moves : State → State → Prop := Relation.ReflTransGen Move

theorem Move.run {s t : State} (h : Move s t) : Moves s t := Relation.ReflTransGen.single h

theorem Accesses.moves {s t : State} (h : Accesses s t) : Moves s t := by
  induction h with
  | refl => exact .refl
  | tail _ hc ih => exact ih.tail (.access hc)

theorem commandWork_moves (rec : CommandRecord) (s : State) (he : s.window.engine = some rec) :
    Moves s (commandWork rec s) := by
  by_cases h1 : rec.job = .engineReset
  · have : commandWork rec s = engineResetWork rec s := by unfold commandWork; simp [h1]
    rw [this]
    exact (Move.engineReset s).run.trans (finishCommand_accesses _ _ _ _).moves
  · by_cases h2 : rec.job = .releaseLines
    · have : commandWork rec s = releaseLinesWork rec s := by unfold commandWork; simp [h2]
      rw [this]
      unfold releaseLinesWork
      split
      · exact (finishCommand_accesses _ _ _ s).moves
      · exact (finishCommand_accesses _ _ _ s).moves
      · rename_i h
        exact (Move.released s h).run.trans (finishCommand_accesses _ _ _ _).moves
    · exact (commandWork_accesses rec s he h1 h2).moves

theorem workIf_moves (c : CommandCode) (s : State) : Moves s (workIf c s) := by
  unfold workIf
  split
  · exact .refl
  · rename_i rec he
    split
    · exact commandWork_moves rec s he
    · exact .refl

theorem taken_moves {work : State → State} (hw : ∀ s, Moves s (work s)) {s t : State} (h : taken work s = .next t) :
    Moves s t := by
  cases h
  exact (settle_changes s).accesses.moves.trans (hw _)

/-- Every command but power-on reset answers a state that a run of moves reaches. -/
theorem exec_moves (c : Instr) (s t : State) (hc : ∀ ins safeN, c ≠ .powerOnReset ins safeN) (h : exec c s = .next t) :
    Moves s t := by
  have hcw : ∀ (w : Word) (s : State), Moves s (commandWrite w s) := fun w s => (commandWrite_accesses w s).moves
  have hww : ∀ (a : BitVec 5) (w : Word) (s : State), Moves s (windowWrite a w s) :=
    fun a w s => (windowWrite_accesses a w s).moves
  have hrd : ∀ (a : BitVec 5) (s : State), Moves s (windowRead a s) := fun a s => (windowRead_accesses a s).moves
  cases c
  case powerOnReset => exact absurd rfl (hc _ _)
  case batchFire =>
    cases h
    split
    · exact .refl
    · exact (takeBatchNotice_changes s).accesses.moves
  case pulseEnd => cases h; exact (takeLineNotice_changes s).accesses.moves
  case stall => cases h; exact (takeStallNotice_changes s).accesses.moves
  case inputEdge => exact taken_moves (fun s => (inputSeen_accesses _ _ _ _ s).moves) h
  case safeAssertion => exact taken_moves (fun s => (Move.safeAsserted s).run) h
  case safeRelease => exact taken_moves (fun s => (Move.safeReleased s).run) h
  case tb0Arrival => exact taken_moves (fun s => (completePhase_changes s).accesses.moves) h
  case clkPeriod => exact taken_moves (fun s => (clockPeriod_changes s).accesses.moves) h
  case stageWrite => exact taken_moves (fun s => (stageWrite_accesses _ _ s).moves) h
  case badIndex access =>
    cases access with
    | read => exact taken_moves (work := windowRead 0x17#5) (hrd _) h
    | write w => exact taken_moves (work := windowWrite 0x17#5 w) (hww _ w) h
  all_goals
    first
    | exact taken_moves (hcw _) h
    | exact taken_moves (hww _ _) h
    | exact taken_moves (hrd _) h
    | exact taken_moves (workIf_moves _) h

end Sys2Proof.Machine
end

