-- ==== Sys2Proof/Laws/Settle.lean ====
section
/-!
SUPPORT. The work of a TB0 arrival: what a settled state makes of it, what taking a notice and finishing the batches leaves,
and the induction over the moves of a command.
-/
namespace Sys2Proof.Machine

open Sys2Proof.Safety

/-! ### Settled states -/

theorem takeLineNotice_none {s : State} (h : s.notices.lines = none) : takeLineNotice s = s := by
  simp [takeLineNotice, h]

theorem takeStallNotice_none {s : State} (h : s.notices.stalls = none) : takeStallNotice s = s := by
  simp [takeStallNotice, h]

theorem finishBatches_none {s : State} (h : s.sched.batches = []) : finishBatches s = s := by
  simp [finishBatches, h]

/-- A settled state has no work of an arrival left to take. -/
theorem settle_of_settled {s : State} (h : Settled s) : settle s = s := by
  have hl : s.notices.lines = none := by rw [h.2]
  have hs : s.notices.stalls = none := by rw [h.2]
  simp [settle, takeBatchNotice, takeLineNotice_none hl, finishBatches_none h.1, takeStallNotice_none hs]

/-- On a settled state a command is its own work. -/
theorem taken_of_settled {work : State → State} {s : State} (h : Settled s) : taken work s = .next (work s) := by
  simp [taken, settle_of_settled h]

/-- A settled state drives what its line records give. -/
theorem drivenLevel_of_settled {s : State} (h : Settled s) (n : Fin 8) : drivenLevel s n = pinLevel (s.line n) := by
  simp [drivenLevel, settle_of_settled h]

/-- The line unit has no notice left to take once it has taken one. -/
@[simp] theorem takeLineNotice_lines (s : State) : (takeLineNotice s).notices.lines = none := by
  unfold takeLineNotice
  split
  · assumption
  · rfl

theorem takeLineNotice_twice (s : State) : takeLineNotice (takeLineNotice s) = takeLineNotice s :=
  takeLineNotice_none (takeLineNotice_lines s)

/-- PULSE_END drives no level: the pins belong to the arrival taken whole. -/
theorem drivenLevel_takeLineNotice (s : State) (n : Fin 8) : drivenLevel (takeLineNotice s) n = drivenLevel s n := by
  simp [drivenLevel, settle, takeBatchNotice, takeLineNotice_twice]

/-- A read of a settled state returns what the state has. -/
theorem registerWord_of_settled {s : State} (h : Settled s) (a : BitVec 5) : registerWord a s = settledWord a s := by
  simp [registerWord, settle_of_settled h]

/-- PULSE_END changes no word that the host reads: a read belongs to the arrival taken whole. -/
theorem registerWord_takeLineNotice (a : BitVec 5) (s : State) : registerWord a (takeLineNotice s) = registerWord a s := by
  simp [registerWord, settle, takeBatchNotice, takeLineNotice_twice]

/-! ### Notices and batch records under the part's operations -/

/-- No raise of a source touches anything but the notification controller. -/
theorem raiseSource_notify (src : Source) (s : State) : raiseSource src s = s.setNotify (notifyCause src s.notify) := rfl

/-- A handed record changes the queue and the notification controller, and nothing else. -/
theorem handReport_frame (r : Report) (s : State) :
    ∃ q n, handReport r s = (s.setQueue q).setNotify n ∧ (n = s.notify ∨ ∃ src, n = notifyCause src s.notify) := by
  unfold handReport
  split
  · dsimp only
    split
    · exact ⟨_, _, rfl, .inr ⟨.report, rfl⟩⟩
    · exact ⟨queueAppend s.queue r, s.notify, rfl, .inl rfl⟩
  · exact ⟨_, _, rfl, .inr ⟨.lost, rfl⟩⟩

@[simp] theorem handReport_sched (r : Report) (s : State) : (handReport r s).sched = s.sched := by
  obtain ⟨q, n, h, -⟩ := handReport_frame r s; rw [h]; rfl

@[simp] theorem handReport_tb (r : Report) (s : State) : (handReport r s).tb = s.tb := by
  obtain ⟨q, n, h, -⟩ := handReport_frame r s; rw [h]; rfl

@[simp] theorem handReport_notices (r : Report) (s : State) : (handReport r s).notices = s.notices := by
  obtain ⟨q, n, h, -⟩ := handReport_frame r s; rw [h]; rfl

@[simp] theorem handReport_lines (r : Report) (s : State) : (handReport r s).lines = s.lines := by
  obtain ⟨q, n, h, -⟩ := handReport_frame r s; rw [h]; rfl

@[simp] theorem handReport_inputs (r : Report) (s : State) : (handReport r s).inputs = s.inputs := by
  obtain ⟨q, n, h, -⟩ := handReport_frame r s; rw [h]; rfl

@[simp] theorem handReport_meas (r : Report) (s : State) : (handReport r s).meas = s.meas := by
  obtain ⟨q, n, h, -⟩ := handReport_frame r s; rw [h]; rfl

@[simp] theorem handReport_window (r : Report) (s : State) : (handReport r s).window = s.window := by
  obtain ⟨q, n, h, -⟩ := handReport_frame r s; rw [h]; rfl

@[simp] theorem handReport_pending (r : Report) (s : State) : (handReport r s).pending = s.pending := by
  obtain ⟨q, n, h, -⟩ := handReport_frame r s; rw [h]; rfl

@[simp] theorem handReport_readWord (r : Report) (s : State) : (handReport r s).readWord = s.readWord := by
  obtain ⟨q, n, h, -⟩ := handReport_frame r s; rw [h]; rfl

/-- The end of a batch gives up its record, whatever its fires have done. -/
theorem finishBatch_batches (request : State → State) (s : State) :
    (finishBatch request s).sched.batches = s.sched.batches.tail := by
  unfold finishBatch
  split
  · rename_i h; simp [h]
  · rename_i b rest h; simp [h, State.setBatches]

/-- All the batch records held are taken to their ends, and none is left. -/
theorem finishBatches_batches (s : State) : (finishBatches s).sched.batches = [] := by
  suffices h : ∀ (l : List BatchRecord) (s : State), l.length = s.sched.batches.length →
      (l.foldl (fun s _ => finishBatch stepRequest s) s).sched.batches = [] from h _ s rfl
  intro l
  induction l with
  | nil => intro s h; exact List.length_eq_zero_iff.mp h.symm
  | cons b rest ih =>
    intro s h
    refine ih _ ?_
    rw [finishBatch_batches, List.length_tail, ← h]
    rfl

/-! ### Induction over moves -/

/-- A property that every elementary change keeps is kept by the part's work. -/
theorem Changes.induct {P : State → Prop} (h : ∀ s t, Change s t → P s → P t) {s t : State} (hc : Changes s t) (hs : P s) :
    P t := by
  induction hc with
  | refl => exact hs
  | tail _ hc ih => exact h _ _ hc ih

/-- A property that every move keeps, and that the power-on state has, is kept by every command. -/
theorem exec_keeps {P : State → Prop} (hm : ∀ s t, Move s t → P s → P t)
    (hp : ∀ ins safeN (s : State), P { State.powerOn ins safeN with pending := s.pending })
    (c : Instr) {s t : State} (h : exec c s = .next t) (hs : P s) : P t := by
  by_cases hc : ∃ ins safeN, c = .powerOnReset ins safeN
  · obtain ⟨ins, safeN, rfl⟩ := hc
    cases h
    exact hp ins safeN s
  · have := exec_moves c s t (fun ins safeN e => hc ⟨ins, safeN, e⟩) h
    clear h
    induction this with
    | refl => exact hs
    | tail _ hc ih => exact hm _ _ hc ih

/-- The same for a step, for a property that does not look at the queue of commands. -/
theorem step_keeps {P : State → Prop} (hm : ∀ s t, Move s t → P s → P t)
    (hp : ∀ ins safeN (s : State), P { State.powerOn ins safeN with pending := s.pending })
    (hq : ∀ (s : State) (l : List Instr), P s → P { s with pending := l }) {s t : State} (h : step s = .next t) (hs : P s) :
    P t := by
  unfold step at h
  split at h
  · cases h; exact hs
  · exact exec_keeps hm hp _ h (hq _ _ hs)

end Sys2Proof.Machine
end

