-- ==== Sys2Proof/Laws/Operations.lean ====
section
/-!
SUPPORT. What the operations that many commands share can do, each said once: completions, faults, arguments, the validity of
a record, the words of a record, the raising of a source, and the places of a due list.
-/
namespace Sys2Proof.Machine

open Sys2Proof.Safety

/-! ### The command engine -/

/-- A completion is the statements' `afterCompletion`. -/
theorem completeCommand_eq (status : CommandStatus) (code : BitVec 4) (detail : Byte) (s : State) :
    completeCommand status code detail s = afterCompletion status code detail s := by
  unfold completeCommand afterCompletion raiseSource notifyCause sourceLevel
  simp only [sourceIndex, State.setWindow, State.setNotify]
  by_cases h : s.notify.settings[10] = .disabled
  · simp [h]
  · cases h' : s.notify.settings[10] with
    | disabled => exact absurd h' h
    | level n => simp [h']

theorem finishCommand_eq (rec : CommandRecord) (status : CommandStatus) (detail : Byte) (s : State) :
    finishCommand rec status detail s = afterCompletion status (jobCode rec.job).bits detail s :=
  completeCommand_eq _ _ _ s

/-- The completion row of the command in progress, on a settled state, is that command's work. -/
theorem workIf_of_engine {s : State} {rec : CommandRecord} (h : s.window.engine = some rec) :
    workIf (jobCode rec.job) s = commandWork rec s := by
  simp [workIf, h]

/-- A completion row changes nothing while no command, or another one, is in progress (log 1). -/
theorem workIf_of_other {s : State} {c : CommandCode} (h : ∀ rec, s.window.engine = some rec → jobCode rec.job ≠ c) :
    workIf c s = s := by
  unfold workIf
  split
  · rfl
  · rename_i rec he
    exact if_neg (h rec he)

/-- Each row of a host command is the write of its command word. -/
theorem exec_hostCommand (c : CommandCode) (argument : Byte) (s : State) :
    exec (hostCommand c argument) s = taken (commandWrite (commandWord c argument)) s := by cases c <;> rfl

theorem argumentSlot_eq {a : Byte} {i : SlotId} (h : a.toNat % 128 = i.val) : argumentSlot a = i := by
  apply Fin.ext
  simp [argumentSlot, BitVec.extractLsb']
  omega

theorem argumentChannel_eq {a : Byte} {c : Fin 4} (h : a.toNat = c.val) : argumentChannel a = c := by
  apply Fin.ext
  simp [argumentChannel, BitVec.extractLsb', h]

theorem argumentGroup_eq {a : Byte} {g : BitVec 3} (h : a.toNat = g.toNat) : argumentGroup a = g := by
  apply BitVec.eq_of_toNat_eq
  simp only [argumentGroup, BitVec.extractLsb'_toNat]
  have := g.isLt
  omega

/-! ### Faults and sources -/

/-- One occurrence of a fault sets its bit and, FAULT never being disabled, the FAULT flag. -/
theorem raiseFault_eq (f : FaultBits → FaultBits) (s : State) :
    raiseFault f s =
      { s with notify := { s.notify with flags := s.notify.flags.set 0 true, faults := f s.notify.faults } } := by
  simp [raiseFault, notifyFault, notifyCause, sourceLevel, sourceIndex, State.setNotify]

/-- After a cause a flag is pending when it was, or when it is the cause's own and its source is enabled. -/
theorem sourcePending_notifyCause (cause src : Source) (n : NotifyUnit) :
    sourcePending (notifyCause cause n) src =
      (sourcePending n src || (decide (sourceIndex cause = sourceIndex src) && (sourceLevel n cause).isSome)) := by
  unfold notifyCause sourcePending
  by_cases hl : (sourceLevel n cause).isSome = true
  · by_cases hi : sourceIndex cause = sourceIndex src
    · simp [hl, hi]
    · have hv : (sourceIndex cause).val ≠ (sourceIndex src).val := fun h => hi (Fin.ext h)
      simp [hl, hi, hv]
  · simp [hl]

theorem sourceLevel_notifyCause (cause src : Source) (n : NotifyUnit) :
    sourceLevel (notifyCause cause n) src = sourceLevel n src := by
  unfold sourceLevel
  simp only [notifyCause_settings]

theorem mem_allSources (src : Source) : src ∈ allSources := by
  cases src with
  | mc c => revert c; decide
  | wrap t => cases t <;> decide
  | _ => decide

/-- Each source has its own number. -/
theorem sourceIndex_inj {a b : Source} (h : sourceIndex a = sourceIndex b) : a = b := by
  have : ∀ a ∈ allSources, ∀ b ∈ allSources, sourceIndex a = sourceIndex b → a = b := by decide
  exact this a (mem_allSources a) b (mem_allSources b) h

/-! ### Records -/

/-- `validRecord` answers the captured record whole. -/
theorem validRecord_some {d : Draft} {r : Record} (h : validRecord d = some r) :
    ∃ k t, d.kind = some k ∧ d.timebase = some t ∧ r = { toFields := d.toFields, kind := some k, timebase := t } := by
  unfold validRecord at h
  cases hk : d.kind with
  | none => simp [hk] at h
  | some k =>
    cases ht : d.timebase with
    | none => simp [hk, ht] at h
    | some t =>
      simp [hk, ht] at h
      exact ⟨k, t, rfl, rfl, h.2.symm⟩

theorem isCancellable_iff (sl : Slot) : isCancellable sl = true ↔ sl.state = .armed ∨ sl.state = .held := by
  simp [isCancellable]

theorem isArmable_iff (sl : Slot) : isArmable sl = true ↔ sl.state = .staged ∨ sl.state = .spent := by
  simp [isArmable]

/-- An unread record has its header, a gap word when its gap count is not 0, and its content words. -/
theorem unreadWords_length (r : Report) (gap : Nat) :
    (unreadWords ⟨r, gap, 0⟩).length = 1 + (reportContent r).length + (if gap = 0 then 0 else 1) := by
  by_cases h : gap = 0 <;> simp [unreadWords, queuedWords, h] <;> omega

theorem queueWords_eq (q : ReportQueue) : queueWords q = (q.records.flatMap unreadWords).length := by
  simp [queueWords, List.length_flatMap]

theorem recordFits_iff (q : ReportQueue) (r : Report) :
    recordFits q r = true ↔ (unreadWords ⟨r, q.lost, 0⟩).length + (q.records.flatMap unreadWords).length ≤ 128 := by
  have : (if 0 < q.lost then 1 else 0) = if q.lost = 0 then 0 else 1 := by
    by_cases h : q.lost = 0
    · simp [h]
    · simp [h, Nat.pos_of_ne_zero h]
  simp [recordFits, wordsNeeded, Config.queueCapacity, unreadWords_length, queueWords_eq, this]

/-- The raise of a source is the statements' `caused`. -/
theorem notifyCause_eq (src : Source) (n : NotifyUnit) : notifyCause src n = caused src n := by
  unfold notifyCause caused
  cases h : sourceLevel n src <;> simp

/-- A handed record changes the queue and the notification controller as the statements' `handed` says. -/
theorem handReport_eq (r : Report) (s : State) :
    handReport r s = (s.setQueue (handed r (s.queue, s.notify)).1).setNotify (handed r (s.queue, s.notify)).2 := by
  have hf : (recordFits s.queue r = true) ↔
      1 + (reportContent r).length + (if s.queue.lost = 0 then 0 else 1) + (s.queue.records.flatMap unreadWords).length ≤ 128 := by
    rw [recordFits_iff, unreadWords_length]
  unfold handReport handed queueAfter
  by_cases h : recordFits s.queue r = true
  · simp only [h, if_true, if_pos (hf.mp h), queueAppend, raiseSource, notifyCause_eq, queueRecords, State.setQueue,
      State.setNotify]
    split <;> rfl
  · rw [if_neg h]
    simp only [if_neg (mt hf.mpr h), queueDrop, raiseSource, notifyCause_eq, Config.lostLimit, State.setQueue, State.setNotify]

/-! ### Due lists -/

/-- A join adds the entry and no other. -/
theorem insertEntry_perm (dist : SlotId → Nat) (i : SlotId) (l : List SlotId) :
    (insertEntry dist i l).Perm (i :: l) := by
  induction l with
  | nil => exact .refl _
  | cons j rest ih =>
    unfold insertEntry
    split
    · exact (ih.cons j).trans (.swap i j rest)
    · exact .refl _

theorem mem_insertEntry (dist : SlotId → Nat) (i j : SlotId) (l : List SlotId) :
    j ∈ insertEntry dist i l ↔ j = i ∨ j ∈ l := by
  rw [(insertEntry_perm dist i l).mem_iff, List.mem_cons]

/-- A sort keeps the entries of the list. -/
theorem sortEntries_perm (dist : SlotId → Nat) (l : List SlotId) : (sortEntries dist l).Perm l := by
  suffices h : ∀ acc, (l.foldl (fun acc i => insertEntry dist i acc) acc).Perm (acc ++ l) from by
    simpa [sortEntries] using h []
  induction l with
  | nil => intro acc; simp
  | cons i rest ih =>
    intro acc
    refine (ih _).trans ?_
    refine ((insertEntry_perm dist i acc).append_right rest).trans ?_
    simpa using (List.perm_middle (a := i) (l₁ := acc) (l₂ := rest)).symm

end Sys2Proof.Machine
end

