-- ==== Sys2Proof/WellFormed.lean ====
section
/-!
DEFINITION. Which commands are well formed: each row's operands as the table's row says them. A meaning is total and does
not ask for it: an ill-formed command is still an access the part takes, by the rules of the access it is.
-/
namespace Sys2Proof

/-- The plain stores and the registers that discard every write: the addresses of row WINDOW_WRITE (R184). -/
def plainAddress (a : BitVec 5) : Bool :=
  a = 0x00#5 || a = 0x01#5 || a = 0x03#5 || (0x0E#5 ≤ a && a ≤ 0x16#5)
    || a = 0x19#5 || a = 0x1A#5 || a = 0x1B#5 || a = 0x1C#5 || a = 0x1E#5

/-- Well-formedness of a command: the accepted host commands carry an argument in range (10.3), BAD_COMMAND a word that
names no command, ARGUMENT_OUT_OF_RANGE a known code with an argument out of range (R187), WINDOW_WRITE a plain store or
a register that discards writes (R184). -/
def Instr.wellFormed : Instr → Bool
  | .powerOnReset _ _ => true
  | .writeSlot a => CommandCode.writeSlot.admits a
  | .writeSlotCompletion => true
  | .readSlot a => CommandCode.readSlot.admits a
  | .readSlotCompletion => true
  | .freeSlot a => CommandCode.freeSlot.admits a
  | .freeSlotCompletion => true
  | .arm a => CommandCode.arm.admits a
  | .armCompletion => true
  | .armGroup a => CommandCode.armGroup.admits a
  | .armGroupStep => true
  | .cancel a => CommandCode.cancel.admits a
  | .cancelCompletion => true
  | .cancelGroup a => CommandCode.cancelGroup.admits a
  | .cancelGroupCompletion => true
  | .loadTb a => CommandCode.loadTb.admits a
  | .loadTbCompletion => true
  | .measStart a => CommandCode.measStart.admits a
  | .measStartCompletion => true
  | .measStop a => CommandCode.measStop.admits a
  | .measStopCompletion => true
  | .flushReports a => CommandCode.flushReports.admits a
  | .flushReportsCompletion => true
  | .releaseLines a => CommandCode.releaseLines.admits a
  | .releaseLinesCompletion => true
  | .engineReset a => CommandCode.engineReset.admits a
  | .engineResetCompletion => true
  | .badCommand w => (decodeCommand w).isNone
  | .tbHiRead _ => true
  | .reportDataRead => true
  | .claim => true
  | .complete _ => true
  | .stageWrite _ _ => true
  | .lineForceWrite _ => true
  | .faultWrite _ => true
  | .timebaseEnablesWrite _ => true
  | .prescalerWrite _ => true
  | .edgeSelectionsWrite _ => true
  | .lineConfigurationWrite _ => true
  | .channelConfigurationWrite _ => true
  | .channelStatusWrite _ => true
  | .notificationLevelsWrite _ => true
  | .reportThresholdWrite _ => true
  | .badIndex _ => true
  | .windowWrite a _ => plainAddress a
  | .inputEdge _ _ _ _ => true
  | .safeAssertion => true
  | .safeRelease => true
  | .tb0Arrival => true
  | .batchFire => true
  | .pulseEnd => true
  | .stall => true
  | .clkPeriod => true
  | .commandWriteInBusy _ => true
  | .argumentOutOfRange w =>
    match decodeCommand w with
    | some c => !(c.admits (commandArgument w))
    | none => false

end Sys2Proof
end

