-- ==== Sys2Proof/Tests/Slice0.lean ====
section
/-!
SUPPORT. The model's own tests: the ill-formed commands that WellFormed refuses, single steps whose expected results are the
manual's worked examples, and for each statement with hypotheses a state and operands that meet them, clause by clause.
-/
namespace Sys2Proof.Tests

open Sys2Proof.Machine Sys2Proof.Safety

/-! ### WellFormed refuses an ill-formed command for each of its checks -/

theorem test_writeSlot_argument_32_refused : (Instr.writeSlot 32#8).wellFormed = false := by decide
theorem test_readSlot_view_of_slot_32_refused : (Instr.readSlot 0xA0#8).wellFormed = false := by decide
theorem test_freeSlot_argument_32_refused : (Instr.freeSlot 32#8).wellFormed = false := by decide
theorem test_arm_argument_255_refused : (Instr.arm 255#8).wellFormed = false := by decide
theorem test_armGroup_argument_0_and_8_refused :
    (Instr.armGroup 0#8).wellFormed = false ∧ (Instr.armGroup 8#8).wellFormed = false := by decide
theorem test_cancel_argument_32_refused : (Instr.cancel 32#8).wellFormed = false := by decide
theorem test_cancelGroup_argument_0_and_8_refused :
    (Instr.cancelGroup 0#8).wellFormed = false ∧ (Instr.cancelGroup 8#8).wellFormed = false := by decide
theorem test_loadTb_argument_3_refused : (Instr.loadTb 3#8).wellFormed = false := by decide
theorem test_measStart_argument_4_refused : (Instr.measStart 4#8).wellFormed = false := by decide
theorem test_measStop_argument_4_refused : (Instr.measStop 4#8).wellFormed = false := by decide
theorem test_badCommand_with_a_known_word_refused : (Instr.badCommand 0x0100#16).wellFormed = false := by decide
theorem test_argumentOutOfRange_in_range_refused : (Instr.argumentOutOfRange 0x011F#16).wellFormed = false := by decide
theorem test_argumentOutOfRange_unknown_refused : (Instr.argumentOutOfRange 0x0E00#16).wellFormed = false := by decide
theorem test_windowWrite_of_command_refused : (Instr.windowWrite 0x02#5 0#16).wellFormed = false := by decide

/-! ### States for the tests -/

/-- The next state of a command. -/
def after (c : Instr) (s : State) : State :=
  match exec c s with
  | .next t => t
  | .fault _ => s
  | .refused _ => s

/-- The state after reset with the three timebases enabled. -/
def counting : State := after (.timebaseEnablesWrite 7#16) State.reset

/-- A record of a kind on a timebase, its other fields zero. -/
def record (k : Kind) (t : Timebase) : Record := { Record.zero with kind := some k, timebase := t }

/-- A STAGED slot with a record. -/
def staged (r : Record) : Slot := ⟨.staged, r, 0#24, 0#16⟩

/-- An ARMED slot with a record and a next due. -/
def armed (r : Record) (due : Tick) : Slot := ⟨.armed, r, due, r.repeatCount⟩

/-- A command in progress. -/
def busy (job : Job) (argument : Byte) (s : State) : State :=
  s.setWindow { s.window with engine := some ⟨job, argument⟩ }

/-- One ARMED entry of TB0 in slot 5, due on 10, in list 0. -/
def withEntry (s : State) : State := (s.setSlot 5 (armed (record .mark .clock) 10#24)).setDueList .clock [5]

/-- A channel in a state, with its latched configuration as after power-on but for the window exponent and the timeout. -/
def channelIn (st : ChannelState) (k : Fin 9) (timeout : Tick) (s : State) : State :=
  s.setChannel 1 { Channel.initial with state := st, latched := ⟨{ Setup.initial with windowExponent := k }, timeout⟩ }

/-! ### Single steps against the manual's examples -/

/-- Chapter 10.8: the words 0x0105 and 0x0285, and the upper bits that must be 0 (R199). -/
theorem test_command_words :
    decodeCommand 0x0105#16 = some .writeSlot ∧ commandArgument 0x0105#16 = 5#8 ∧
      decodeCommand 0x0285#16 = some .readSlot ∧ commandArgument 0x0285#16 = 0x85#8 ∧
      decodeCommand 0x1105#16 = none ∧ decodeCommand 0x0E00#16 = none := by decide

/-- Chapter 10.8: the record captured from the staging words 0x4147, 0, 0x3E8, 0, 0x32, 0, 0xC8, 3. -/
theorem test_captured_record :
    captureRecord #v[0x4147#16, 0#16, 0x3E8#16, 0#16, 0x32#16, 0#16, 0xC8#16, 3#16, 0xFFFF#16, 0xFFFF#16] =
      { kind := some .pulse, timebase := some .clock, due := 1000#24, target := 2#3, operand := 50#24, period := 200#24
        repeatCount := 3#16, group := 4#3, holdEdge := .absent, holdLine := 0, latePolicy := .refuse, skipPolicy := .drop
        keep := true, report := true, notify := false } := by decide

/-- Chapter 10.8: the run view of the armed slot 5 reads 0x4147, 0x4000, 0x3E8, 0, 0x32, 0, 0xC8, 3, 0, 0x3E8. -/
theorem test_run_view_words :
    slotWords true
      ⟨.armed,
        { kind := some .pulse, timebase := .clock, due := 1000#24, target := 2#3, operand := 50#24, period := 200#24
          repeatCount := 3#16, group := 4#3, holdEdge := .absent, holdLine := 0, latePolicy := .refuse
          skipPolicy := .drop, keep := true, report := true, notify := false },
        1000#24, 3#16⟩ =
      #v[0x4147#16, 0x4000#16, 0x3E8#16, 0#16, 0x32#16, 0#16, 0xC8#16, 3#16, 0#16, 0x3E8#16] := by decide

/-- Chapter 10.8: a completion with OK of code 1 and detail 5 reads 0x1105. -/
theorem test_result_word : resultWord ⟨.ok, 1#4, 5#8⟩ = 0x1105#16 := by decide

/-- Chapter 2, distances across a load: 45, 60 and 100 from 60. -/
theorem test_distances_after_a_load :
    distance 45#24 60#24 = 16777201 ∧ distance 60#24 60#24 = 16777216 ∧ distance 100#24 60#24 = 40 := by decide

/-- Chapter 3.1: slot 2, of distance 20, joins the list 4/10, 12/20, 20/20, 7/100 behind slot 20. -/
theorem test_ties_join_behind :
    insertEntry (fun i => if i = 4 then 10 else if i = 7 then 100 else 20) 2 [4, 12, 20, 7] = [4, 12, 20, 2, 7] := by decide

/-- Chapter 2, prescaler phase: with code 5 the fifth period completes the phase, an arrival onto 1. -/
theorem test_fifth_period_completes_the_phase :
    (after .clkPeriod (counting.setTb { counting.tb with prescaler := 5#8, phase := 4 })).tbValue .clock = 1#24 ∧
      (after .clkPeriod (counting.setTb { counting.tb with prescaler := 5#8, phase := 3 })).tbValue .clock = 0#24 := by
  decide

/-- Chapter 5.10, at 150: a load of TB0 ends the pulse {0, 160} and takes OUT1 low. -/
theorem test_load_ends_the_pulse :
    (endPulsesOnLoad .clock (counting.setLine 1
      { Line.initial false with scheduled := .high, pulse := some ⟨.clock, 160#24⟩ })).line 1 = Line.initial false := by
  decide

/-- Chapter 5.10, at 131: a SET on a line with a pulse in flight is answered CUT. -/
theorem test_set_cuts_the_pulse :
    levelAnswer { Line.initial false with pulse := some ⟨.clock, 140#24⟩ } = .cut := by decide

/-- Chapter 5.11, at 212 and 215: a forced line shows its force, and under a hold its safe level. -/
theorem test_pin_precedence :
    pinLevel { Line.initial false with force := .high } = .high ∧
      pinLevel { Line.initial true with force := .high } = .low := by decide

/-- Chapter 6.5: an assertion sets every hold and SAFE pending; RELEASE_LINES in ACTIVE gives BAD_STATE. -/
theorem test_safe_assertion :
    ((after .safeAssertion State.reset).line 6).safeHold = true ∧
      sourcePending (after .safeAssertion State.reset).notify .safe = true ∧
      (after .releaseLinesCompletion (busy .releaseLines 0#8 (after .safeAssertion State.reset))).window.result.status =
        .badState := by decide

/-- Chapter 7.11: a window with sum 520, min 250 and max 270, k = 1, HALF_UP, extremes on. -/
theorem test_full_window_record :
    measReport 0 { Channel.initial with
      latched := ⟨{ Setup.initial with windowExponent := 1, rounding := .halfUp, extremes := true }, 500#24⟩
      count := 2, sum := 520, min := 250, max := 270 } = .meas 0 260#16 (some (250#16, 270#16)) false := by decide

/-- R138: a half rounds up under HALF_UP, and to the even quotient under HALF_EVEN. -/
theorem test_rounding_of_halves :
    roundDivide .trunc 5 2 = 2 ∧ roundDivide .halfUp 5 2 = 3 ∧ roundDivide .halfEven 5 2 = 2 ∧
      roundDivide .halfEven 7 2 = 4 := by decide

/-- Chapter 7.11: an elapsed time of 499 does not stall a timeout of 500, and 500 does. -/
theorem test_stall_at_the_timeout :
    intervalStalls 2119#24 { Channel.initial with state := .timing, latched := ⟨Setup.initial, 500#24⟩, start := 1620#24 }
        = false ∧
      intervalStalls 2120#24 { Channel.initial with state := .timing, latched := ⟨Setup.initial, 500#24⟩, start := 1620#24 }
        = true := by decide

/-- A queue of FIRED records and one MEAS record with extremes, as in chapter 8.9: 3 words each, and 4. -/
def queueOf (fired lost : Nat) : ReportQueue :=
  ⟨List.replicate fired ⟨.fired 0 .clock 0#24 ⟨false, false, false, false⟩, 0, 0⟩
    ++ [⟨.meas 1 0#16 (some (0#16, 0#16)) false, 0, 0⟩], lost, 8⟩

/-- Chapter 8.9: with 127 words unread and L = 1, a STALL record needs two words and does not fit; with 124 and L = 2, a
FIRED record needs four and fits. -/
theorem test_gap_word_is_counted :
    recordFits (queueOf 41 1) (.stall 0) = false ∧
      recordFits (queueOf 40 2) (.fired 14 .clock 0#24 ⟨false, false, false, false⟩) = true := by decide

/-- Chapter 9.7: with MC0 at level 0 and REPORT at level 1 both pending, a claim returns 3, and MC0 stays pending. -/
theorem test_claim_takes_report_first :
    claimWord (notifyCause .report (notifyCause (.mc 0) { NotifyUnit.initial with
      settings := #v[.level 1, .level 2, .level 0, .disabled, .disabled, .disabled, .disabled, .disabled, .disabled,
        .level 2, .level 1] })) = 3#16 := by decide

/-- Chapter 9.8: a surplus complete leaves the current level OPEN and raises COMPLETE_UNDERFLOW. -/
theorem test_surplus_complete :
    (notifyComplete NotifyUnit.initial).current = .openLevel ∧
      (notifyComplete NotifyUnit.initial).faults.completeUnderflow = true := by decide

/-- Chapter 4, a group cancel inside a batch: the cancel passes over a member that is being fired. -/
theorem test_group_cancel_passes_over_a_firing_member :
    cancelTakes 6#3 (((counting.setSlot 9 (armed { record .clear .edge with group := 6#3 } 70#24))).setBatches
      [⟨.edge, 70#24, [9], [5], []⟩]) 9 = false := by decide

/-- Chapter 4, a CLOCK batch: the load of TB0 takes the entry of slot 6, due on 1,050, to distance 16,777,186, and it is
skipped under DROP. -/
theorem test_deferred_load_skips_an_entry :
    distance 1050#24 1080#24 = 16777186 ∧
      ((loadTimebase .clock 1080#24 ((counting.setSlot 6
        (armed { record .mark .clock with skipPolicy := .drop, keep := true } 1050#24)).setDueList .clock [6])).slot 6).state
        = .spent := by decide

/-- R100: a PULSE of width W and period W, 5 here, re-fired at the arrival that ends its pulse. After PULSE_END the line has
gone to its inactive level, and the pin and SCHED_LEVELS, which show the taking whole (R94, R107), stay active. -/
theorem test_pulse_train_keeps_the_pin_active :
    let train : Record := { record .pulse .clock with target := 2#3, operand := 5#24, period := 5#24 }
    let flying := (((counting.setSlot 5 (armed train 10#24)).setDueList .clock [5]).setTbValue .clock 9#24).setLine 2
      { Line.initial false with scheduled := .high, pulse := some ⟨.clock, 10#24⟩ }
    let ended := after .pulseEnd (after .tb0Arrival flying)
    (ended.line 2).scheduled = .low ∧ drivenLevel ended 2 = .high ∧ registerWord 0x19#5 ended = 4#16 ∧
      registerWord 0x1A#5 ended = 4#16 ∧
      drivenLevel (after .batchFire ended) 2 = .high := by decide

/-- Chapter 11.1 and 11.2: the words of the FIRED record of slot 10 due on 8,340, and of the REFUSED record with BY_GROUP of
slot 21. -/
theorem test_record_words :
    queuedWords ⟨.fired 10 .edge 8340#24 ⟨false, false, false, false⟩, 0, 0⟩ = [0x120A#16, 0x0000#16, 0x2094#16] ∧
      queuedWords ⟨.refused 21 .step false true, 0, 0⟩ = [0x2495#16] := by decide

/-- R198: written with all bits set, the selections item reads back edge kind 2 (both) twice, and a set-up item TRUNC and 8 for
both exponents, with every unused bit 0. -/
theorem test_substitute_codes_read_back :
    let at2 := after (.windowWrite 0x16#5 0x02#16) counting
    let at10 := after (.windowWrite 0x16#5 0x10#16) counting
    registerWord 0x17#5 (after (.edgeSelectionsWrite 0xFFFF#16) at2) = 0x1B1B#16 ∧
      registerWord 0x17#5 (after (.channelConfigurationWrite 0xFFFF#16) at10) = 0x488F#16 := by decide

/-- R197: an index that names no item raises BAD_INDEX. -/
theorem test_index_without_an_item :
    (after (.badIndex (.write 7#16)) (State.reset.setWindow { State.reset.window with cfgIndex := 0x23#8 })).notify.faults
      = ⟨false, false, true, false⟩ := by decide

/-! ### What meets the statements' hypotheses, clause by clause -/

theorem test_witness_step : ({ State.reset with pending := [.claim] } : State).pending = Instr.claim :: State.reset.pending ∧
    State.reset.pending = [] := by decide

theorem test_witness_arrivalWork :
    (after .tb0Arrival counting).notices = ⟨some 1#24, some 1#24⟩ ∧ Instr.claim ≠ .batchFire ∧ Instr.claim ≠ .pulseEnd ∧
      Instr.claim ≠ .stall ∧ ∀ ins safeN, Instr.claim ≠ .powerOnReset ins safeN :=
  ⟨by decide, by decide, by decide, by decide, nofun⟩

theorem test_witness_commandsLeaveTheQueueAlone : ∃ t, exec .safeRelease (after .safeAssertion counting) = .next t := ⟨_, rfl⟩

theorem test_witness_engineReset :
    Settled (busy .engineReset 0xFF#8 counting) ∧ SafeStateSound (busy .engineReset 0xFF#8 counting) ∧
      (busy .engineReset 0xFF#8 counting).window.engine = some ⟨.engineReset, 0xFF#8⟩ := by decide

theorem test_witness_commandWords : decodeCommand 0x0D00#16 = some .engineReset := by decide

theorem test_witness_acceptedHostCommand : Settled counting ∧ Idle counting ∧ argumentInRange .writeSlot 31 ∧
    argumentInRange .readSlot 159 ∧ argumentInRange .freeSlot 0 ∧ argumentInRange .arm 31 ∧ argumentInRange .armGroup 1 ∧
    argumentInRange .armGroup 7 ∧ argumentInRange .cancel 31 ∧ argumentInRange .cancelGroup 1 ∧
    argumentInRange .cancelGroup 7 ∧ argumentInRange .loadTb 2 ∧ argumentInRange .measStart 3 ∧
    argumentInRange .measStop 3 ∧ argumentInRange .flushReports 255 ∧ argumentInRange .releaseLines 255 ∧
    argumentInRange .engineReset 255 := by
  refine ⟨by decide, by decide, ?_⟩
  simp [argumentInRange]

theorem test_witness_refusedWord : Settled counting ∧ Idle counting ∧ decodeCommand 0x0E00#16 = none ∧
    decodeCommand 0x1101#16 = none ∧ decodeCommand 0x0120#16 = some .writeSlot ∧
    ¬ argumentInRange .writeSlot ((0x0120#16 : Word).toNat % 256) ∧ decodeCommand 0x0803#16 = some .loadTb ∧
    ¬ argumentInRange .loadTb ((0x0803#16 : Word).toNat % 256) := by
  refine ⟨by decide, by decide, by decide, by decide, by decide, ?_, by decide, ?_⟩ <;> simp [argumentInRange]

theorem test_witness_wordWhileBusy : Settled (busy .arm 31#8 counting) ∧
    (busy .arm 31#8 counting).window.engine = some ⟨.arm, 31#8⟩ := by decide

/-- The captured records of the WRITE_SLOT witnesses: kind MARK on CLOCK, and no kind. -/
def draft (k : Option Kind) : Draft := { Record.zero.toFields with kind := k, timebase := some .clock }

theorem test_witness_writeSlot :
    let s := busy (.writeSlot (draft (some .mark))) 31#8 counting
    let bad := busy (.writeSlot (draft none)) 0#8 counting
    let held := (busy (.writeSlot (draft none)) 5#8 counting).setSlot 5 { Slot.empty with state := .held }
    (Settled s ∧ s.window.engine = some ⟨.writeSlot (draft (some .mark)), 31#8⟩ ∧ (s.slot 31).state = .free) ∧
    (Settled bad ∧ bad.window.engine = some ⟨.writeSlot (draft none), 0#8⟩ ∧ (bad.slot 0).state = .free) ∧
    (Settled held ∧ held.window.engine = some ⟨.writeSlot (draft none), 5#8⟩ ∧ (held.slot 5).state = .held) := by decide

theorem test_witness_writeSlot_validity :
    ¬ InvalidRecord (draft (some .mark)) ∧ InvalidRecord (draft none) ∧
      InvalidRecord { draft (some .mark) with period := 8388609#24 } ∧
      ¬ InvalidRecord { draft (some .mark) with period := 8388608#24, repeatCount := 1#16 } := by
  refine ⟨?_, ?_, ?_, ?_⟩ <;> simp [InvalidRecord, draft, Record.zero]

theorem test_witness_readSlot :
    let s := busy .readSlot 0x9F#8 counting
    Settled s ∧ s.window.engine = some ⟨.readSlot, 0x9F#8⟩ ∧ (0x9F#8 : Byte).toNat % 128 = (31 : SlotId).val := by decide

theorem test_witness_stagingWords : (staged (record .mark .step)).record.kind = some .mark := by decide

theorem test_witness_freeSlot :
    let s := busy .freeSlot 5#8 counting
    let at5 : SlotState → State := fun st => s.setSlot 5 { Slot.empty with state := st }
    Settled s ∧ (s.slot 5).state = .free ∧ ∀ st ∈ [SlotState.staged, .spent, .armed, .held],
      Settled (at5 st) ∧ (at5 st).window.engine = some ⟨.freeSlot, 5#8⟩ ∧ ((at5 st).slot 5).state = st := by decide

theorem test_witness_cancel :
    let s := busy .cancel 5#8 (withEntry counting)
    let free := busy .cancel 31#8 counting
    (Settled s ∧ s.window.engine = some ⟨.cancel, 5#8⟩ ∧ (s.slot 5).state = .armed) ∧
    (Settled free ∧ free.window.engine = some ⟨.cancel, 31#8⟩ ∧ (free.slot 31).state = .free) := by decide

theorem test_witness_cancelGroup :
    let s := busy .cancelGroup 7#8 counting
    Settled s ∧ s.window.engine = some ⟨.cancelGroup, 7#8⟩ ∧ (7#8 : Byte).toNat = (7#3 : BitVec 3).toNat ∧ 7#3 ≠ 0#3 := by
  decide

/-- ARM of slot 3 in progress with a record in it, beside the entry in slot 5. -/
def arming (r : Record) : State := busy .arm 3#8 ((withEntry counting).setSlot 3 (staged r))

/-- MARK entries of TB0 with the largest distance that is ahead, with the next one, and with a hold. -/
def aheadMark : Record := { record .mark .clock with due := 8388608#24 }
def lateMark : Record := { record .mark .clock with due := 8388609#24 }
def heldMark : Record := { record .mark .clock with holdEdge := .both, due := 1#24 }

/-- The late one under FIRE_NOW, one-shot and with the longest period. -/
def lateOnce : Record := { lateMark with latePolicy := .fireNow }
def lateAgain : Record := { lateOnce with period := 8388608#24 }

set_option maxRecDepth 20000 in
theorem test_witness_arm_sound : SchedulerSound (arming aheadMark) ∧ SchedulerSound (arming heldMark) := by
  constructor <;> decide

set_option maxRecDepth 20000 in
theorem test_witness_arm_late_sound : SchedulerSound (arming lateMark) ∧ SchedulerSound (arming lateOnce) := by
  constructor <;> decide

set_option maxRecDepth 20000 in
theorem test_witness_arm_again_sound : SchedulerSound (arming lateAgain) ∧
    SchedulerSound (busy .arm 5#8 (withEntry counting)) := by constructor <;> decide

theorem test_witness_arm :
    (∀ r ∈ [aheadMark, heldMark, lateMark], Settled (arming r) ∧ (arming r).window.engine = some ⟨.arm, 3#8⟩ ∧
      ((arming r).slot 3).state = .staged) ∧
    (distance aheadMark.due 0#24 = 8388608 ∧ aheadMark.holdEdge = .absent) ∧ heldMark.holdEdge ≠ .absent ∧
    (distance lateMark.due 0#24 = 8388609 ∧ lateMark.holdEdge = .absent ∧ lateMark.latePolicy = .refuse) ∧
    (Settled (busy .arm 5#8 (withEntry counting)) ∧ ((busy .arm 5#8 (withEntry counting)).slot 5).state = .armed) := by
  decide

theorem test_witness_lateArm :
    (∀ r ∈ [lateOnce, lateAgain], Settled (arming r) ∧ (arming r).window.engine = some ⟨.arm, 3#8⟩ ∧
      ((arming r).slot 3).state = .staged ∧ r.holdEdge = .absent ∧ r.latePolicy = .fireNow ∧ r.kind = some .mark ∧
      8388608 < distance r.due ((arming r).tbValue .clock) ∧ r.period.toNat ≤ 8388608) ∧
    lateOnce.period = 0#24 ∧ lateAgain.period ≠ 0#24 ∧ lateAgain.repeatCount ≠ 1#16 := by decide

/-- ARM_GROUP of group 7 in progress at slot 31, with a record of that group in it. -/
def groupArming (r : Record) : State :=
  busy (.armGroup 31 31) 7#8 ((withEntry counting).setSlot 31 (staged { r with group := 7#3 }))

set_option maxRecDepth 20000 in
theorem test_witness_armGroup_sound : SchedulerSound (groupArming aheadMark) ∧ SchedulerSound (groupArming heldMark) := by
  constructor <;> decide

set_option maxRecDepth 20000 in
theorem test_witness_armGroup_late_sound :
    SchedulerSound (groupArming lateMark) ∧ SchedulerSound (busy (.armGroup 0 0) 1#8 counting) := by
  constructor <;> decide

/-- The late one as a STEP entry, whose request is applied before the command goes on. -/
def lateStep : Record := { lateOnce with kind := some .step }

set_option maxRecDepth 20000 in
theorem test_witness_late_step_sound :
    SchedulerSound (arming lateStep) ∧ SchedulerSound (groupArming lateStep) := by constructor <;> decide

theorem test_witness_late_step :
    Settled (arming lateStep) ∧ Settled (groupArming lateStep) ∧
      8388608 < distance lateStep.due ((arming lateStep).tbValue .clock) ∧
      (after .armCompletion (arming lateStep)).tbValue .step = 1#24 ∧
      (after .armGroupStep (groupArming lateStep)).tbValue .step = 1#24 := by decide

theorem test_witness_armGroup :
    (∀ r ∈ [aheadMark, heldMark, lateMark], Settled (groupArming r) ∧
      (groupArming r).window.engine = some ⟨.armGroup (31 : SlotId).val 31, 7#8⟩ ∧
      ((groupArming r).slot 31).state = .staged ∧ ((groupArming r).slot 31).record.group.toNat = (7#8 : Byte).toNat) ∧
    (Settled (busy (.armGroup 0 0) 1#8 counting) ∧ ((busy (.armGroup 0 0) 1#8 counting).slot 0).state = .free ∧
      (busy (.armGroup 0 0) 1#8 counting).window.engine = some ⟨.armGroup (0 : SlotId).val 0, 1#8⟩) := by decide

theorem test_witness_loadTb :
    let s := busy .loadTb 2#8 (withEntry counting)
    Settled s ∧ s.window.engine = some ⟨.loadTb, 2#8⟩ ∧ (2#8 : Byte).toNat = timebaseNumber .step := by decide

theorem test_witness_measCommands :
    let off := busy .measStart 3#8 counting
    let open1 := busy .measStart 1#8 (channelIn .waitStart 0 0#24 counting)
    let stop := busy .measStop 1#8 (channelIn .timing 8 0#24 counting)
    let stopOff := busy .measStop 0#8 counting
    (Settled off ∧ off.window.engine = some ⟨.measStart, 3#8⟩ ∧ (off.channel 3).state = .off) ∧
    (Settled open1 ∧ (open1.channel 1).state ≠ .off) ∧
    (Settled stop ∧ stop.window.engine = some ⟨.measStop, 1#8⟩ ∧ (stop.channel 1).state ≠ .off) ∧
    (Settled stopOff ∧ (stopOff.channel 0).state = .off) := by decide

theorem test_witness_flushAndRelease :
    let stopped := after .safeAssertion counting
    let cleared := after .safeRelease stopped
    (Settled (busy .flushReports 0#8 counting) ∧
      (busy .flushReports 0#8 counting).window.engine = some ⟨.flushReports, 0#8⟩) ∧
    (Settled (busy .releaseLines 0#8 cleared) ∧ (busy .releaseLines 0#8 cleared).inputs.safe = .cleared) ∧
    (Settled (busy .releaseLines 0#8 stopped) ∧ (busy .releaseLines 0#8 stopped).inputs.safe = .active) ∧
    (Settled (busy .releaseLines 0#8 counting) ∧ (busy .releaseLines 0#8 counting).inputs.safe = .run) := by decide

/-- One FIRED record in the queue, its header read, and a SKIPPED record behind it. -/
def withRecords (s : State) : State :=
  s.setQueue ⟨[⟨.fired 3 .clock 7#24 ⟨false, false, false, false⟩, 0, 1⟩, ⟨.skipped 4 .edge, 0, 0⟩], 0, 1⟩

/-- The same with one word left of the first record. -/
def withLastWord (s : State) : State :=
  s.setQueue ⟨[⟨.fired 3 .clock 7#24 ⟨false, false, false, false⟩, 0, 2⟩, ⟨.skipped 4 .edge, 0, 0⟩], 0, 1⟩

theorem test_witness_reportRead :
    (Settled (withRecords counting) ∧ QueueSound (withRecords counting).queue ∧
      unreadWords ⟨.fired 3 .clock 7#24 ⟨false, false, false, false⟩, 0, 1⟩ = [0#16, 7#16]) ∧
    (QueueSound (withLastWord counting).queue ∧
      unreadWords ⟨.fired 3 .clock 7#24 ⟨false, false, false, false⟩, 0, 2⟩ = [7#16]) ∧
    (Settled counting ∧ QueueSound counting.queue ∧ counting.queue.records = []) := by decide

theorem test_witness_claim :
    Settled counting ∧ (∀ src ∈ allSources, sourceEligible counting.notify src = false) ∧
      sourceEligible (after .safeAssertion counting).notify .safe = true ∧ Settled (after .safeAssertion counting) := by
  decide

theorem test_witness_complete :
    let claimed := after .claim (after .safeAssertion counting)
    (Settled claimed ∧ ClaimStackSound claimed.notify ∧ claimed.notify.stack = [.openLevel]) ∧
    (Settled counting ∧ ClaimStackSound counting.notify ∧ counting.notify.stack = []) := by decide

theorem test_witness_stageWrite :
    (Settled (busy .readSlot 5#8 counting) ∧ (busy .readSlot 5#8 counting).window.engine = some ⟨.readSlot, 5#8⟩) ∧
    (Settled (busy .arm 5#8 counting) ∧ ∀ a, (busy .arm 5#8 counting).window.engine ≠ some ⟨.readSlot, a⟩) :=
  ⟨by decide, by decide, fun a h => by simp [busy, State.setWindow] at h⟩

/-- A state whose CFG_INDEX holds an index. -/
def indexed (i : Byte) : State := counting.setWindow { counting.window with cfgIndex := i }

theorem test_witness_settled_indexes :
    ∀ i ∈ [0x00#8, 0x01#8, 0x02#8, 0x20#8, 0x21#8, 0x22#8], Settled (indexed i) ∧ (indexed i).window.cfgIndex = i := by decide

theorem test_witness_line_and_channel_indexes :
    (Settled (indexed 0x0F#8) ∧ (indexed 0x0F#8).window.cfgIndex.toNat = 8 + (7 : Fin 8).val) ∧
      ∀ base ∈ [0x10#8, 0x14#8, 0x18#8, 0x1C#8], Settled (indexed (base + 3#8)) ∧
        (indexed (base + 3#8)).window.cfgIndex.toNat = base.toNat + (3 : Fin 4).val := by decide

theorem test_witness_badIndex :
    ∀ i ∈ [0x03#8, 0x07#8, 0x23#8, 0xFF#8], Settled (indexed i) ∧
      ((3 ≤ (indexed i).window.cfgIndex.toNat ∧ (indexed i).window.cfgIndex.toNat ≤ 7) ∨
        0x23 ≤ (indexed i).window.cfgIndex.toNat) := by decide

theorem test_witness_itemsReadBack :
    1 ≤ counting.queue.threshold ∧ counting.queue.threshold ≤ 16 ∧ CfgItem.enables ≠ .prescaler ∧
      (∀ c, CfgItem.enables ≠ .status c) ∧ DisabledFlagsClear counting.notify := by decide

theorem test_witness_views :
    QueueSound (settle (withRecords counting)).queue ∧
      (∀ i ∈ [0x00#8, 0x01#8, 0x02#8, 0x07#8, 0x0F#8, 0x13#8, 0x17#8, 0x1B#8, 0x1F#8, 0x20#8, 0x21#8, 0x22#8, 0x23#8],
        (settle (indexed i)).window.cfgIndex = i ∧ Settled (indexed i)) ∧
      (cfgItemOfIndex 0x01#8).isSome = true ∧
      0x17#5 ∉ [0x0E#5, 0x10#5, 0x12#5, 0x1B#5, 0x1D#5] := by decide

theorem test_witness_edge_without_consumers :
    let stopped := after .safeAssertion counting
    (Settled counting ∧ counting.inputs.last[3] = .low) ∧
    (Settled stopped ∧ stopped.inputs.last[3] ≠ .high ∧ stopped.inputs.safe = .active) ∧
    (counting.inputs.last[3] ≠ .high ∧ counting.tb.clearSelection.on = false ∧ counting.tb.countSelection.on = false ∧
      (∀ i : SlotId, (counting.slot i).state ≠ .held) ∧ ∀ c : Fin 4, (counting.channel c).state = .off) := by decide

theorem test_witness_claims :
    let busyArm := busy .arm 5#8 counting
    let busyReset := busy .engineReset 0#8 counting
    (Settled counting ∧ counting.window.engine = none) ∧
    (Settled busyArm ∧ busyArm.window.engine = some ⟨.arm, 5#8⟩ ∧ jobCode .arm ≠ .engineReset ∧ jobCode .arm ≠ .releaseLines) ∧
    (Settled busyReset ∧ busyReset.window.engine = some ⟨.engineReset, 0#8⟩) ∧
    0x1C#5 ∉ [0x0E#5, 0x10#5, 0x12#5, 0x17#5, 0x1B#5, 0x1D#5] := by decide

/-- TB1 with its count selection on rises of IN0, and its clear selection on both edges of IN1. -/
def selecting (enabled : Bool) : State :=
  counting.setTb { counting.tb with
    countSelection := ⟨0, .rise, true⟩
    clearSelection := ⟨1, .both, true⟩
    enables := { counting.tb.enables with edge := enabled } }

theorem test_witness_edge_of_TB1 :
    ∀ enabled ∈ [true, false], Settled (selecting enabled) ∧ (selecting enabled).inputs.last[0] ≠ .high ∧
      (selecting enabled).inputs.last[1] ≠ .high ∧ (selecting enabled).inputs.safe ≠ .active ∧
      (selecting enabled).dueList .edge = [] ∧ (∀ i : SlotId, ((selecting enabled).slot i).state ≠ .held) ∧
      (∀ c : Fin 4, ((selecting enabled).channel c).state = .off) ∧
      (∀ n : Fin 8, ((selecting enabled).line n).pulse = none) ∧ (selecting enabled).tb.enables.edge = enabled := by decide

theorem test_witness_selected :
    Selected (selecting true).tb.clearSelection 1 .high ∧ Selected (selecting true).tb.clearSelection 1 .low ∧
      ¬ Selected (selecting true).tb.clearSelection 0 .high ∧ Selected (selecting true).tb.countSelection 0 .high ∧
      ¬ Selected (selecting true).tb.countSelection 0 .low ∧ ¬ Selected (selecting true).tb.countSelection 3 .high := by
  unfold Selected
  decide

set_option maxRecDepth 20000 in
/-- A counted edge whose arrival ends a pulse of TB1 and fires an entry of TB1, with a CLK period between the first two steps
of its dispatch. -/
theorem test_counted_edge_fires_its_batch :
    let s := (((selecting true).setSlot 5 (armed (record .set .edge) 1#24)).setDueList .edge [5]).setLine 7
      { Line.initial false with scheduled := .high, pulse := some ⟨.edge, 1#24⟩ }
    let t := after (.inputEdge 0 .high [.clkPeriod false] []) s
    t.tbValue .edge = 1#24 ∧ t.tbValue .clock = 1#24 ∧ t.dueList .edge = [] ∧ (t.line 7).pulse = none ∧
      (t.line 0).scheduled = .high := by decide

set_option maxRecDepth 20000 in
theorem test_witness_edge_releases :
    let s := counting.setSlot 9 { armed { record .mark .edge with holdEdge := .rise, holdLine := 2, due := 8388608#24 } 0#24
      with state := .held }
    Settled s ∧ SchedulerSound s ∧ s.inputs.last[2] ≠ .high ∧ s.inputs.safe ≠ .active ∧ s.tb.clearSelection.on = false ∧
      s.tb.countSelection.on = false ∧ (∀ c : Fin 4, (s.channel c).state = .off) ∧ (s.slot 9).state = .held := by decide

theorem test_witness_edge_times_an_interval :
    ∀ st ∈ [ChannelState.waitStart, .timing], ∀ k ∈ [(0 : Fin 9), 1],
      let s := channelIn st k 0#24 counting
      Settled s ∧ s.inputs.last[0] ≠ .high ∧ s.inputs.safe ≠ .active ∧ s.tb.enables.clock = true ∧
        s.tb.clearSelection.on = false ∧ s.tb.countSelection.on = false ∧ (∀ i : SlotId, (s.slot i).state ≠ .held) ∧
        (∀ d : Fin 4, d ≠ 1 → (s.channel d).state = .off) ∧ (s.channel 1).latched.setup.input = 0 ∧
        (s.channel 1).state = st := by decide

theorem test_witness_edge_while_TB0_is_disabled :
    let s := channelIn .timing 0 0#24 State.reset
    Settled s ∧ s.inputs.last[0] ≠ .high ∧ s.inputs.safe ≠ .active ∧ s.tb.enables.clock = false ∧
      s.tb.clearSelection.on = false ∧ s.tb.countSelection.on = false ∧ (∀ i : SlotId, (s.slot i).state ≠ .held) ∧
      (s.channel 1).state ≠ .off := by decide

theorem test_witness_safe :
    (Settled counting ∧ SafeStateSound counting ∧ counting.inputs.safeN = .high) ∧
      (Settled (after .safeAssertion counting) ∧ SafeStateSound (after .safeAssertion counting) ∧
        (after .safeAssertion counting).inputs.safeN = .low) := by decide

theorem test_witness_clock :
    let slow := counting.setTb { counting.tb with prescaler := 2#8 }
    (Settled State.reset ∧ State.reset.tb.enables.clock = false) ∧
    (Settled slow ∧ slow.tb.enables.clock = true ∧ slow.inputs.safe ≠ .active ∧ slow.tb.phase + 1 < slow.tb.prescaler.toNat) ∧
    (Settled counting ∧ counting.tb.enables.clock = true ∧ counting.tb.prescaler.toNat ≤ counting.tb.phase + 1) := by decide

/-- A TB0 arrival onto 10 taken with the entry of slot 5 due on it, its line notice already taken. -/
def inBatch (k : Kind) : State :=
  after .pulseEnd (after .tb0Arrival (((counting.setSlot 5 (armed (record k .clock) 10#24)).setDueList .clock [5]).setTbValue
    .clock 9#24))

theorem test_witness_batch :
    ∀ k ∈ [Kind.mark, .step, .loadTb], (inBatch k).sched.batches = [⟨.clock, 10#24, [5], [], []⟩] ∧ BatchSound (inBatch k) ∧
      (inBatch k).notices.lines = none ∧ ((inBatch k).slot 5).record.kind = some k ∧
      ((inBatch k).slot 5).record.target = 0#3 ∧ (inBatch k).dueList .step = [] ∧
      (∀ n : Fin 8, ((inBatch k).line n).pulse = none) ∧ (inBatch k).tb.enables.step = true := by decide

theorem test_witness_batch_of_each_kind :
    ∀ k ∈ [Kind.set, .clear, .toggle, .pulse, .loadTb, .step, .armGroup, .cancelGroup, .mark, .measOpen, .measClose],
      (inBatch k).sched.batches = ⟨.clock, 10#24, 5 :: [], [], []⟩ :: [] ∧ ((inBatch k).slot 5).record.kind = some k := by
  decide

theorem test_witness_deferred_list :
    let s := counting.setBatches [⟨.clock, 1#24, [], [], [.load 7#24, .step]⟩]
    s.sched.batches = ⟨.clock, 1#24, [], [], .load 7#24 :: [.step]⟩ :: [] ∧
      (finishBatch stepRequest s).tbValue .clock = 7#24 ∧ (finishBatch stepRequest s).tbValue .step = 1#24 := by decide

theorem test_witness_pulse_ends_before_the_batch :
    counting.sched.batches = [] ∧ (after .tb0Arrival counting).sched.batches ≠ [] := by decide

theorem test_witness_notices :
    counting.notices.lines = none ∧ counting.notices.stalls = none ∧
      (after .tb0Arrival counting).notices.lines = some 1#24 ∧ (after .tb0Arrival counting).notices.stalls = some 1#24 ∧
      intervalStalls 1#24 ((channelIn .timing 0 1#24 counting).channel 1) = true := by decide

set_option maxRecDepth 20000 in
theorem test_witness_handed_record :
    (QueueSound (queueOf 41 0) ∧ (unreadWords ⟨.stall 0, 0, 0⟩).length + ((queueOf 41 0).records.flatMap unreadWords).length
      = 128) ∧
    (QueueSound (queueOf 41 1) ∧ (unreadWords ⟨.stall 0, 1, 0⟩).length + ((queueOf 41 1).records.flatMap unreadWords).length
      = 129) := by decide

theorem test_witness_distance_order :
    distance 1#24 0#24 = 1 ∧ distance 0#24 0#24 ≠ 1 ∧
      ([2, 1, 3] : List SlotId).Pairwise (fun j k => (if j = 3 then 9 else 5) ≤ (if k = 3 then 9 else 5)) := by decide

theorem test_witness_line_actions :
    let r : Record := { record .pulse .clock with target := 7#3 }
    let flying := counting.setLine 7 { Line.initial false with pulse := some ⟨.clock, 5#24⟩ }
    let refusing := counting.setLine 7 { Line.initial false with pulse := some ⟨.clock, 5#24⟩, pulsePolicy := .refuse }
    r.target.toNat = (7 : Fin 8).val ∧ (counting.line 7).pulse = none ∧ (flying.line 7).pulse ≠ none ∧
      (flying.line 7).pulsePolicy = .retrigger ∧ (refusing.line 7).pulse ≠ none ∧ (refusing.line 7).pulsePolicy = .refuse := by
  decide

theorem test_witness_other_actions :
    let s := (channelIn .waitStart 0 0#24 counting).setBatches [⟨.step, 1#24, [], [], []⟩]
    s.sched.batches = [⟨.step, 1#24, [], [], []⟩] ∧ (2#3 : BitVec 3).toNat = timebaseNumber .step ∧
      (3#3 : BitVec 3).toNat = (3 : Fin 4).val ∧ (s.channel 3).state = .off ∧ (s.channel 1).state ≠ .off ∧
      (record .cancelGroup .step).kind = some .cancelGroup := by decide

/-- Inside the fire of the ARM_GROUP entry of slot 9, a state with a record of group 6 in slot 3 and a hold of it in slot 4. -/
def inGroupArm (r : Record) : State :=
  (((counting.setSlot 9 (armed { record .armGroup .clock with target := 6#3 } 0#24)).setSlot 3
    (staged { r with group := 6#3 })).setSlot 4 (staged { heldMark with group := 6#3 })).setBatches
    [⟨.clock, 0#24, [], [9], []⟩]

set_option maxRecDepth 20000 in
theorem test_witness_group_pass_lists :
    (∀ t ∈ allTimebases, DueListSound (inGroupArm lateMark) t) ∧ ∀ t ∈ allTimebases, DueListSound (inGroupArm aheadMark) t := by
  constructor <;> decide

theorem test_witness_group_pass :
    (∀ r ∈ [lateMark, lateOnce], (((inGroupArm r).slot 3).state = .staged ∧ ((inGroupArm r).slot 3).record.group = 6#3 ∧
      8388608 < distance ((inGroupArm r).slot 3).record.due ((inGroupArm r).tbValue .clock)) ∧
      (∀ b ∈ (inGroupArm r).sched.batches, (3 : SlotId) ∉ b.waiting ∧ (3 : SlotId) ∉ b.chain) ∧
      ∀ j : SlotId, j < 3 → ((inGroupArm r).slot j).state = .free) ∧
    lateMark.latePolicy = .refuse ∧ lateOnce.latePolicy = .fireNow ∧ (6#3 : BitVec 3) ≠ 0#3 := by decide

/-- The same before the ARM_GROUP entry of slot 9 begins to fire, and without the hold in slot 4. -/
theorem test_witness_nested_fire :
    let s := ((inGroupArm lateOnce).setSlot 4 Slot.empty).setBatches [⟨.clock, 0#24, [], [], []⟩]
    (s.slot 9).record.kind = some .armGroup ∧ (s.slot 9).record.target = 6#3 ∧ (s.slot 3).state = .staged ∧
      (s.slot 3).record.latePolicy = .fireNow ∧ (s.slot 3).record.kind = some .mark ∧
      8388608 < distance (s.slot 3).record.due (s.tbValue .clock) ∧
      ∀ k : SlotId, k ≠ 9 → k ≠ 3 → (s.slot k).state = .free := by decide

/-- A state that a run reaches: TB0 has moved, an entry waits in list 0, SAFE is CLEARED and a notification is claimed. -/
def reached : State := after .claim (after .safeRelease (after .safeAssertion (withEntry (after .tb0Arrival counting))))

set_option maxRecDepth 20000 in
theorem test_witness_invariants_of_the_queues :
    ClaimStackSound reached.notify ∧ DisabledFlagsClear reached.notify ∧ QueueSound reached.queue := by decide

set_option maxRecDepth 20000 in
theorem test_witness_invariants_of_the_inputs :
    SafeStateSound reached ∧ PhaseSound reached.tb ∧ (∀ c : Fin 4, WindowSound (reached.channel c)) ∧
      NoIntervalWhileStopped reached := by decide

set_option maxRecDepth 20000 in
theorem test_witness_invariants_of_the_slots :
    (∀ i : SlotId, SlotSound (reached.slot i)) ∧ EngineSound (groupArming aheadMark).window := by
  constructor
  · decide
  · exact ⟨by decide, by decide, by decide⟩

set_option maxRecDepth 20000 in
theorem test_witness_due_lists : SchedulerSound (inBatch .mark) ∧ SchedulerSound (withEntry counting) := by
  constructor <;> decide

theorem test_witness_invariants_step : ∃ t, step { reached with pending := [.claim] } = .next t := ⟨_, rfl⟩

end Sys2Proof.Tests
end

section
/-!
PROOFS. The slots and the command record keep their ranges under every step (O58), by induction over the moves of a command
(Laws/Moves.lean, Laws/Settle.lean): an elementary change of a slot says that it keeps the slot sound, and an access of the
window that it keeps the command record sound.
-/
namespace Sys2Proof.ActionTable

open Sys2Proof.Machine Sys2Proof.Safety

theorem slot_of_initial {s : State} (h : s.sched = Scheduler.initial) (i : SlotId) : s.slot i = Slot.empty := by
  simp [State.slot, h, Scheduler.initial]

theorem change_keeps_slotSound {s t : State} (h : Change s t) (i : SlotId) (hs : SlotSound (s.slot i)) :
    SlotSound (t.slot i) := by
  cases h with
  | slot j sl hsl =>
    by_cases hj : j = i
    · subst hj; rw [State.slot_setSlot_same]; exact hsl hs
    · rw [State.slot_setSlot_other _ _ _ _ hj]; exact hs
  | _ => exact hs

theorem access_keeps_slotSound {s t : State} (h : Access s t) (i : SlotId) (hs : SlotSound (s.slot i)) :
    SlotSound (t.slot i) := by
  cases h with
  | change hc => exact change_keeps_slotSound hc i hs
  | enables w => unfold writeEnables; dsimp only; split <;> exact hs
  | _ => exact hs

/-- An assertion of SAFE_N reaches neither the scheduler, nor the timebases, nor the window. -/
theorem safeAsserted_frame (s : State) :
    (safeAsserted s).sched = s.sched ∧ (safeAsserted s).tb = s.tb ∧ (safeAsserted s).window = s.window := by
  unfold safeAsserted
  split
  · exact ⟨rfl, rfl, rfl⟩
  · dsimp only; split <;> exact ⟨rfl, rfl, rfl⟩

/-- Nor does a release. -/
theorem safeReleased_frame (s : State) :
    (safeReleased s).sched = s.sched ∧ (safeReleased s).tb = s.tb ∧ (safeReleased s).window = s.window := by
  unfold safeReleased
  split
  · exact ⟨rfl, rfl, rfl⟩
  · split <;> exact ⟨rfl, rfl, rfl⟩

theorem move_keeps_slotSound {s t : State} (h : Move s t) (hs : ∀ i, SlotSound (s.slot i)) (i : SlotId) :
    SlotSound (t.slot i) := by
  cases h with
  | access ha => exact access_keeps_slotSound ha i (hs i)
  | safeAsserted => rw [State.slot, (safeAsserted_frame s).1]; exact hs i
  | safeReleased => rw [State.slot, (safeReleased_frame s).1]; exact hs i
  | released _ => exact hs i
  | engineReset => rw [slot_of_initial (s := engineReset s) rfl i]; exact slotSound_empty

theorem access_keeps_engineSound {s t : State} (h : Access s t) (hs : EngineSound s.window) : EngineSound t.window := by
  cases h with
  | change hc => rw [hc.keeps.window]; exact hs
  | enables w => unfold writeEnables; dsimp only; split <;> exact hs
  | window w hw => exact hw hs
  | _ => exact hs

theorem move_keeps_engineSound {s t : State} (h : Move s t) (hs : EngineSound s.window) : EngineSound t.window := by
  cases h with
  | access ha => exact access_keeps_engineSound ha hs
  | safeAsserted => obtain ⟨-, -, hw⟩ := safeAsserted_frame s; rw [hw]; exact hs
  | safeReleased => obtain ⟨-, -, hw⟩ := safeReleased_frame s; rw [hw]; exact hs
  | released _ => exact hs
  | engineReset => exact hs

/-- Settles O58, by induction over the moves of the command that the step takes. -/
theorem slotsAndEngineStaySound : Obligations.SlotsAndEngineStaySound := by
  refine ⟨fun s t hs h => ?_, fun s t hs h => ?_⟩
  · refine step_keeps (P := fun s => ∀ i : SlotId, SlotSound (s.slot i)) (fun _ _ => move_keeps_slotSound) ?_ ?_ h hs
    · exact fun ins safeN s i => by rw [slot_of_initial rfl i]; exact slotSound_empty
    · exact fun _ _ hs => hs
  · refine step_keeps (P := fun s => EngineSound s.window) (fun _ _ => move_keeps_engineSound) ?_ ?_ h hs
    · exact fun _ _ _ => trivial
    · exact fun _ _ hs => hs

end Sys2Proof.ActionTable
end

section
/-!
PROOFS. What the due lists' soundness looks at, the scheduler and the values of the timebases, and the operations that leave
it alone: each one said once.
-/
namespace Sys2Proof.ActionTable

open Sys2Proof.Machine Sys2Proof.Safety

/-- The scheduler and the values of the timebases: all that the soundness of the due lists looks at. -/
def schedView (s : State) : Scheduler × PerTb Tick := (s.sched, s.tb.values)

theorem schedView_foldl {α : Type} {f : State → α → State} (h : ∀ s x, schedView (f s x) = schedView s) (l : List α)
    (s : State) : schedView (l.foldl f s) = schedView s := by
  induction l generalizing s with
  | nil => rfl
  | cons x rest ih => exact (ih _).trans (h s x)

/-! ### Notifications, records and completions -/

@[simp] theorem schedView_raiseSource (src : Source) (s : State) : schedView (raiseSource src s) = schedView s := rfl

@[simp] theorem schedView_handReport (r : Report) (s : State) : schedView (handReport r s) = schedView s := by
  simp [schedView]

@[simp] theorem schedView_handChannelReport (c : Fin 4) (r : Report) (s : State) :
    schedView (handChannelReport c r s) = schedView s := schedView_handReport r _

@[simp] theorem schedView_finishCommand (rec : CommandRecord) (status : CommandStatus) (detail : Byte) (s : State) :
    schedView (finishCommand rec status detail s) = schedView s := rfl

/-! ### Lines -/

@[simp] theorem schedView_endPulsesAt (t : Timebase) (v : Tick) (s : State) :
    schedView (endPulsesAt t v s) = schedView s := rfl

@[simp] theorem schedView_endPulsesOnLoad (t : Timebase) (s : State) : schedView (endPulsesOnLoad t s) = schedView s := rfl

@[simp] theorem schedView_takeLineNotice (s : State) : schedView (takeLineNotice s) = schedView s := by
  unfold takeLineNotice
  split <;> rfl

/-! ### Channels -/

@[simp] theorem schedView_interruptIntervals (s : State) : schedView (interruptIntervals s) = schedView s := rfl

@[simp] theorem schedView_setChannel (c : Fin 4) (ch : Channel) (s : State) :
    schedView (s.setChannel c ch) = schedView s := rfl

@[simp] theorem schedView_openChannel (c : Fin 4) (s : State) : schedView (openChannel c s) = schedView s := by
  unfold openChannel
  split <;> rfl

@[simp] theorem schedView_closeChannel (c : Fin 4) (s : State) : schedView (closeChannel c s) = schedView s := by
  unfold closeChannel
  split
  · rfl
  · simp

theorem schedView_settleWindow (c : Fin 4) (ch : Channel) (s : State) :
    schedView (settleWindow c ch s) = schedView s := by
  unfold settleWindow
  split <;> simp

theorem schedView_acceptEdge (c : Fin 4) (e : Edge) (v : Tick) (s : State) :
    schedView (acceptEdge c e v s) = schedView s := by
  unfold acceptEdge
  dsimp only
  split
  · rfl
  · split <;> rfl
  · split
    · exact schedView_settleWindow _ _ _
    · rfl

@[simp] theorem schedView_channelsEdge (line : Fin 4) (e : Edge) (s : State) :
    schedView (channelsEdge line e s) = schedView s := by
  refine schedView_foldl (fun s c => ?_) _ s
  unfold channelEdge
  split
  · exact schedView_acceptEdge _ _ _ _
  · rfl

@[simp] theorem schedView_takeStallNotice (s : State) : schedView (takeStallNotice s) = schedView s := by
  unfold takeStallNotice
  split
  · rfl
  · refine schedView_foldl (fun s c => ?_) _ _
    unfold stallChannel
    split <;> simp

/-! ### Inputs and host accesses -/

@[simp] theorem schedView_setPhase (p : Nat) (s : State) : schedView (setPhase p s) = schedView s := rfl

@[simp] theorem schedView_safeAsserted (s : State) : schedView (safeAsserted s) = schedView s := by
  obtain ⟨hs, ht, -⟩ := safeAsserted_frame s
  rw [schedView, hs, ht, schedView]

@[simp] theorem schedView_safeReleased (s : State) : schedView (safeReleased s) = schedView s := by
  obtain ⟨hs, ht, -⟩ := safeReleased_frame s
  rw [schedView, hs, ht, schedView]

@[simp] theorem schedView_commandWrite (w : Word) (s : State) : schedView (commandWrite w s) = schedView s := by
  unfold commandWrite
  split
  · rfl
  · split
    · rfl
    · split <;> rfl

@[simp] theorem schedView_cfgDataWrite (w : Word) (s : State) : schedView (cfgDataWrite w s) = schedView s := by
  unfold cfgDataWrite
  split
  · rfl
  · unfold writeCfgItem
    split
    case h_1 => unfold writeEnables; dsimp only; split <;> rfl
    all_goals rfl

@[simp] theorem schedView_stageWrite (k : Fin 10) (w : Word) (s : State) : schedView (stageWrite k w s) = schedView s := by
  unfold stageWrite
  split <;> rfl

@[simp] theorem schedView_windowWrite (a : BitVec 5) (w : Word) (s : State) :
    schedView (windowWrite a w s) = schedView s := by
  unfold windowWrite
  split
  case h_1 => exact schedView_commandWrite w s
  case h_5 => exact schedView_cfgDataWrite w s
  case h_9 =>
    split
    · exact schedView_stageWrite _ w s
    · rfl
  all_goals rfl

@[simp] theorem schedView_windowRead (a : BitVec 5) (s : State) : schedView (windowRead a s) = schedView s := by
  unfold windowRead readEffect
  split
  case h_4 => unfold readCfgData; split <;> rfl
  all_goals rfl

end Sys2Proof.ActionTable
end

section
/-!
PROOFS. The due lists with a set of slots in hand: what SchedulerSound becomes inside a command. A slot in hand is ARMED but
in no list: it waits in a batch record, is in its firing chain, or stands between two steps of one operation. Each operation
of the scheduler is said once: which slots it takes in hand and which it puts back.
-/
namespace Sys2Proof.ActionTable

open Sys2Proof.Machine Sys2Proof.Safety

/-! ### Distance and order -/

/-- Each advance of a timebase brings an entry that is not due one nearer (R28). -/
theorem distance_advance {due v : Tick} (h : due ≠ v + 1#24) : distance due (v + 1#24) + 1 = distance due v := by
  have hd : due - v - 1#24 ≠ 0#24 := by bv_omega
  unfold distance
  bv_omega

theorem insertEntry_ordered (dist : SlotId → Nat) (i : SlotId) {l : List SlotId}
    (h : l.Pairwise fun j k => dist j ≤ dist k) : (insertEntry dist i l).Pairwise fun j k => dist j ≤ dist k := by
  induction l with
  | nil => simp [insertEntry]
  | cons j rest ih =>
    obtain ⟨hj, hrest⟩ := List.pairwise_cons.mp h
    unfold insertEntry
    split
    case isTrue hle =>
      refine List.pairwise_cons.mpr ⟨fun k hk => ?_, ih hrest⟩
      obtain rfl | hk := (mem_insertEntry dist i k rest).mp hk
      · exact hle
      · exact hj k hk
    case isFalse hlt =>
      refine List.pairwise_cons.mpr ⟨fun k hk => ?_, h⟩
      obtain rfl | hk := List.mem_cons.mp hk
      · omega
      · have := hj k hk
        omega

theorem sortEntries_ordered (dist : SlotId → Nat) (l : List SlotId) :
    (sortEntries dist l).Pairwise fun j k => dist j ≤ dist k := by
  suffices h : ∀ acc : List SlotId, (acc.Pairwise fun j k => dist j ≤ dist k) →
      (l.foldl (fun acc i => insertEntry dist i acc) acc).Pairwise fun j k => dist j ≤ dist k from h [] .nil
  induction l with
  | nil => exact fun acc h => h
  | cons i rest ih => exact fun acc h => ih _ (insertEntry_ordered dist i h)

/-! ### The lists with slots in hand -/

/-- The due lists are sound but for the slots in hand `F`, and the batch records held are `B`. -/
structure Scheduled (F : Set SlotId) (B : List BatchRecord) (s : State) : Prop where
  nodup : ∀ t, (s.dueList t).Nodup
  entry : ∀ t, ∀ i ∈ s.dueList t, (s.slot i).state = .armed ∧ (s.slot i).record.timebase = t ∧ i ∉ F
  ordered : ∀ t, (s.dueList t).Pairwise fun i j => entryDistance s t i ≤ entryDistance s t j
  placed : ∀ i, (s.slot i).state = .armed → i ∈ s.dueList (s.slot i).record.timebase ∨ i ∈ F
  batches : s.sched.batches = B

variable {F D : Set SlotId} {B : List BatchRecord} {s s' : State} {i : SlotId}

theorem Scheduled.of_view (h : Scheduled F B s) (hv : schedView s' = schedView s) : Scheduled F B s' := by
  obtain ⟨hs, ht⟩ := Prod.mk.inj hv
  have hslot : ∀ i, s'.slot i = s.slot i := fun i => by rw [State.slot, hs, State.slot]
  have hlist : ∀ t, s'.dueList t = s.dueList t := fun t => by rw [State.dueList, hs, State.dueList]
  have hdist : ∀ t i, entryDistance s' t i = entryDistance s t i := fun t i => by
    simp only [entryDistance, hslot, State.tbValue, ht]
  exact ⟨by simpa only [hlist] using h.nodup, by simpa only [hlist, hslot] using h.entry,
    by simpa only [hlist, hdist] using h.ordered, by simpa only [hlist, hslot] using h.placed, by rw [hs, h.batches]⟩

theorem Scheduled.setBatches (h : Scheduled F B s) (B' : List BatchRecord) : Scheduled F B' (s.setBatches B') :=
  ⟨h.nodup, h.entry, h.ordered, h.placed, rfl⟩

theorem Scheduled.not_listed_of_not_armed (h : Scheduled F B s) (hi : (s.slot i).state ≠ .armed) (t : Timebase) :
    i ∉ s.dueList t := fun hm => hi (h.entry t i hm).1

theorem Scheduled.not_listed_of_mem (h : Scheduled F B s) (hi : i ∈ F) (t : Timebase) : i ∉ s.dueList t :=
  fun hm => (h.entry t i hm).2.2 hi

theorem entryDistance_setSlot_other (t : Timebase) (sl : Slot) {j : SlotId} (hj : i ≠ j) :
    entryDistance (s.setSlot i sl) t j = entryDistance s t j := by
  simp [entryDistance, State.slot_setSlot_other _ _ _ _ hj]

/-- A slot that is in no list is replaced; it is then in hand when it is ARMED. -/
theorem Scheduled.setSlot (h : Scheduled F B s) (hi : ∀ t, i ∉ s.dueList t) {F' : Set SlotId}
    (hF : ∀ j, j ≠ i → (j ∈ F' ↔ j ∈ F)) {sl : Slot} (hsl : sl.state = .armed → i ∈ F') :
    Scheduled F' B (s.setSlot i sl) := by
  have hne : ∀ {t j}, j ∈ s.dueList t → j ≠ i := fun hj e => hi _ (e ▸ hj)
  refine ⟨h.nodup, fun t j hj => ?_, fun t => ?_, fun j hj => ?_, h.batches⟩
  · rw [State.slot_setSlot_other _ _ _ _ (hne hj).symm, hF j (hne hj)]
    exact h.entry t j hj
  · refine (h.ordered t).imp_of_mem fun ha hb hab => ?_
    rwa [entryDistance_setSlot_other t sl (hne ha).symm, entryDistance_setSlot_other t sl (hne hb).symm]
  · by_cases hji : j = i
    · subst hji
      exact .inr (hsl (by simpa using hj))
    · rw [State.slot_setSlot_other _ _ _ _ (Ne.symm hji)] at hj ⊢
      rw [hF j hji]
      exact h.placed j hj

/-- A slot in no list takes a state other than ARMED. -/
theorem Scheduled.setSlot_disarmed (h : Scheduled F B s) (hi : ∀ t, i ∉ s.dueList t) {sl : Slot}
    (hsl : sl.state ≠ .armed) : Scheduled F B (s.setSlot i sl) :=
  h.setSlot hi (fun _ _ => .rfl) fun ha => absurd ha hsl

/-- A slot in no list is armed, and is then in hand. -/
theorem Scheduled.setSlot_inHand (h : Scheduled F B s) (hi : ∀ t, i ∉ s.dueList t) (sl : Slot) :
    Scheduled (insert i F) B (s.setSlot i sl) :=
  h.setSlot hi (fun j hj => by simp [hj]) fun _ => Set.mem_insert i F

/-- The slot in hand is given up. -/
theorem Scheduled.setSlot_givenUp (h : Scheduled (insert i F) B s) {sl : Slot} (hsl : sl.state ≠ .armed) :
    Scheduled F B (s.setSlot i sl) :=
  h.setSlot (h.not_listed_of_mem (Set.mem_insert i F)) (fun j hj => by simp [hj]) fun ha => absurd ha hsl

/-- The slot in hand joins the list of its timebase (R43). -/
theorem Scheduled.joinList (h : Scheduled (insert i F) B s) (hi : i ∉ F) (ha : (s.slot i).state = .armed) :
    Scheduled F B (joinList i s) := by
  have hout := h.not_listed_of_mem (Set.mem_insert i F)
  have hlist : ∀ t, (Machine.joinList i s).dueList t =
      if t = (s.slot i).record.timebase then insertEntry (entryDistance s t) i (s.dueList t) else s.dueList t := by
    intro t
    by_cases ht : t = (s.slot i).record.timebase
    · subst ht; simp [Machine.joinList]
    · simp [Machine.joinList, ht, State.dueList_setDueList_other _ _ _ _ ht]
  have hold : ∀ t, ∀ j ∈ s.dueList t, (s.slot j).state = .armed ∧ (s.slot j).record.timebase = t ∧ j ∉ F :=
    fun t j hj => (h.entry t j hj).imp_right (And.imp_right fun hn hF => hn (.inr hF))
  refine ⟨fun t => ?_, fun t j hj => ?_, fun t => ?_, fun j hj => ?_, h.batches⟩
  · rw [hlist]
    split
    · exact (insertEntry_perm _ i _).nodup_iff.mpr (List.nodup_cons.mpr ⟨hout t, h.nodup t⟩)
    · exact h.nodup t
  · rw [hlist] at hj
    split at hj
    case isTrue ht =>
      obtain rfl | hj := (mem_insertEntry _ _ _ _).mp hj
      · exact ⟨ha, ht.symm, hi⟩
      · exact hold t j hj
    case isFalse => exact hold t j hj
  · rw [hlist]
    split
    · exact insertEntry_ordered _ i (h.ordered t)
    · exact h.ordered t
  · change j ∈ (Machine.joinList i s).dueList (s.slot j).record.timebase ∨ j ∈ F
    rw [hlist]
    by_cases hji : j = i
    · subst hji; simp [mem_insertEntry]
    · obtain hj | hj := h.placed j hj
      · left; split
        · exact (mem_insertEntry _ _ _ _).mpr (.inr hj)
        · exact hj
      · exact .inr (hj.resolve_left hji)

/-- An armed slot that was in no list joins the list of its timebase. -/
theorem Scheduled.arm (h : Scheduled F B s) (hi : ∀ t, i ∉ s.dueList t) (hF : i ∉ F) {sl : Slot}
    (hsl : sl.state = .armed) : Scheduled F B (Machine.joinList i (s.setSlot i sl)) :=
  (h.setSlot_inHand hi sl).joinList hF (by simpa using hsl)

/-- The list of one timebase is taken apart: what stays is in order of the value then held, and the rest is in hand. -/
theorem Scheduled.relist (h : Scheduled F B s) (t : Timebase) (hslot : ∀ j, s'.slot j = s.slot j)
    (hother : ∀ u, u ≠ t → s'.dueList u = s.dueList u ∧ s'.tbValue u = s.tbValue u)
    (hparts : ∀ j, j ∈ s.dueList t ↔ j ∈ s'.dueList t ∨ j ∈ D) (hdisj : ∀ j ∈ s'.dueList t, j ∉ D)
    (hn : (s'.dueList t).Nodup) (ho : (s'.dueList t).Pairwise fun j k => entryDistance s' t j ≤ entryDistance s' t k) :
    Scheduled (F ∪ D) s'.sched.batches s' := by
  have hD : ∀ j ∈ D, (s.slot j).record.timebase = t := fun j hj => (h.entry t j ((hparts j).mpr (.inr hj))).2.1
  refine ⟨fun u => ?_, fun u j hj => ?_, fun u => ?_, fun j hj => ?_, rfl⟩
  · by_cases hu : u = t
    · subst hu; exact hn
    · rw [(hother u hu).1]; exact h.nodup u
  · rw [hslot]
    by_cases hu : u = t
    · subst hu
      obtain ⟨ha, ht, hF⟩ := h.entry u j ((hparts j).mpr (.inl hj))
      exact ⟨ha, ht, fun hm => hm.elim hF (hdisj j hj)⟩
    · rw [(hother u hu).1] at hj
      obtain ⟨ha, ht, hF⟩ := h.entry u j hj
      exact ⟨ha, ht, fun hm => hm.elim hF fun hm => hu (ht ▸ hD j hm)⟩
  · by_cases hu : u = t
    · subst hu; exact ho
    · have hdist : ∀ j, entryDistance s' u j = entryDistance s u j := fun j => by
        simp only [entryDistance, hslot, (hother u hu).2]
      simp only [(hother u hu).1, hdist]
      exact h.ordered u
  · rw [hslot] at hj ⊢
    obtain hm | hm := h.placed j hj
    · by_cases hu : (s.slot j).record.timebase = t
      · rw [hu] at hm ⊢
        exact ((hparts j).mp hm).imp_right .inr
      · rw [(hother _ hu).1]
        exact .inl hm
    · exact .inr (.inl hm)

/-! ### Cancels and retirements -/

theorem retiredSlot_not_armed (sl : Slot) : (retiredSlot sl).state ≠ .armed := by
  unfold retiredSlot
  split <;> simp [Slot.empty]

/-- An entry that leaves its list is in hand (R44). -/
theorem Scheduled.leaveList (h : Scheduled F B s) (i : SlotId) :
    Scheduled (F ∪ {j | j = i ∧ j ∈ s.dueList (s.slot i).record.timebase}) B (leaveList i s) := by
  have hb : (Machine.leaveList i s).sched.batches = B := h.batches
  rw [← hb]
  refine h.relist (s.slot i).record.timebase (fun _ => rfl) (fun u hu => ?_) (fun j => ?_) (fun j hj => ?_) ?_ ?_
  · exact ⟨State.dueList_setDueList_other _ _ _ _ hu, rfl⟩
  · simp only [Machine.leaveList, State.dueList_setDueList, List.mem_filter, decide_eq_true_eq, Set.mem_ofPred_eq]
    tauto
  · simp only [Machine.leaveList, State.dueList_setDueList, List.mem_filter, decide_eq_true_eq] at hj
    exact fun hm => hj.2 hm.1
  · simpa [Machine.leaveList] using (h.nodup _).filter _
  · rw [Machine.leaveList, State.dueList_setDueList]
    exact (h.ordered _).filter _

/-- A cancel takes an entry out of its list and retires it (R18). -/
theorem Scheduled.cancelEntry (h : Scheduled F B s) (i : SlotId) : Scheduled F B (cancelEntry i s) := by
  have hout : ∀ t, i ∉ (Machine.leaveList i s).dueList t := by
    intro t hm
    by_cases ht : t = (s.slot i).record.timebase
    · subst ht; simp [Machine.leaveList] at hm
    · rw [Machine.leaveList, State.dueList_setDueList_other _ _ _ _ ht] at hm
      exact ht (h.entry t i hm).2.1.symm
  refine (h.leaveList i).setSlot hout (fun j hj => ?_) fun ha => absurd ha (retiredSlot_not_armed _)
  simp [hj]

theorem Scheduled.cancelMembers (h : Scheduled F B s) (g : BitVec 3) : Scheduled F B (cancelMembers g s) := by
  unfold Machine.cancelMembers
  generalize allSlots = l
  induction l generalizing s with
  | nil => exact h
  | cons i rest ih =>
    refine ih (s := if cancelTakes g s i then _ else _) ?_
    split
    · exact h.cancelEntry i
    · exact h

/-! ### Loads -/

/-- The entries in hand that a skip check drops retire one by one (R63). -/
theorem Scheduled.skipEntries (t : Timebase) {l : List SlotId} (h : Scheduled (F ∪ {j | j ∈ l}) B s) :
    Scheduled F B (l.foldl (fun s i => skipEntry t i s) s) := by
  induction l generalizing s with
  | nil => simpa using h
  | cons i rest ih =>
    refine ih ?_
    have heq : F ∪ {j | j ∈ i :: rest} = insert i (F ∪ {j | j ∈ rest}) := by
      ext j; simp only [List.mem_cons, Set.mem_union, Set.mem_ofPred_eq, Set.mem_insert_iff]; tauto
    rw [heq] at h
    exact (h.setSlot_givenUp (retiredSlot_not_armed (s.slot i))).of_view (by simp [skipEntry, retireSlot])

/-- A load sorts the list of its timebase by the new distances and retires what it drops (R46, R62). -/
theorem Scheduled.skipCheck (h : Scheduled F B s) (t : Timebase) (v : Tick) :
    Scheduled F B (skipCheck t (s.setTbValue t v)) := by
  set s₁ := s.setTbValue t v with hs₁
  set kept := (s₁.dueList t).filter fun i => !(skipDrops s₁ t i) with hkept
  set dropped := (s₁.dueList t).filter (skipDrops s₁ t) with hdropped
  set s₂ := s₁.setDueList t (sortEntries (entryDistance s₁ t) kept) with hs₂
  have hlist : s₂.dueList t = sortEntries (entryDistance s₁ t) kept := State.dueList_setDueList _ _ _
  have hmem : ∀ j, j ∈ s₂.dueList t ↔ j ∈ kept := fun j => by rw [hlist, (sortEntries_perm _ _).mem_iff]
  have hb : s₂.sched.batches = B := h.batches
  have h₂ : Scheduled (F ∪ {j | j ∈ dropped}) B s₂ := by
    rw [← hb]
    refine h.relist t (fun _ => rfl) (fun u hu => ?_) (fun j => ?_) (fun j hj => ?_) ?_ ?_
    · exact ⟨State.dueList_setDueList_other _ _ _ _ hu, State.tbValue_setTbValue_other _ _ _ _ hu⟩
    · rw [hmem, hkept, hdropped]
      have hd : skipDrops s₁ t j = false ∨ skipDrops s₁ t j = true := by cases skipDrops s₁ t j <;> simp
      simp only [List.mem_filter, Bool.not_eq_true', Set.mem_ofPred_eq]
      tauto
    · rw [hmem, hkept, List.mem_filter] at hj
      simp only [hdropped, Set.mem_ofPred_eq, List.mem_filter]
      intro hd
      simp [hd.2] at hj
    · rw [hlist, (sortEntries_perm _ _).nodup_iff]
      exact (h.nodup t).filter _
    · rw [hlist]
      exact sortEntries_ordered _ _
  exact h₂.skipEntries t

theorem Scheduled.loadTimebase (h : Scheduled F B s) (t : Timebase) (v : Tick) :
    Scheduled F B (loadTimebase t v s) := by
  refine (h.skipCheck t v).of_view ?_
  unfold Machine.loadTimebase
  dsimp only
  split <;> simp

end Sys2Proof.ActionTable
end

section
/-!
PROOFS. Arrivals, fires and batches keep the due lists sound: an entry of a batch is in hand from the arrival that takes it
out of its list until its fire settles it, and a nested fire has its entry in hand from its arm step on.
-/
namespace Sys2Proof.ActionTable

open Sys2Proof.Machine Sys2Proof.Safety

variable {F : Set SlotId} {B rest : List BatchRecord} {b : BatchRecord} {s : State} {i : SlotId}

/-! ### The arm step -/

/-- An arm step that finds anything to do finds a slot that is STAGED or SPENT, and so is in no list (R47). -/
theorem not_armed_of_outcome (h : armOutcome s i ≠ .passed) : (s.slot i).state ≠ .armed := by
  intro ha
  apply h
  simp [armOutcome, isArmable, ha]

/-- The arm step keeps the lists sound, when the fire at once that it may make does so with the slot in hand. -/
theorem Scheduled.armStep {P : State → Prop} (h : Scheduled F B s) (hi : i ∉ F) (origin : ArmOrigin)
    {fireNow : SlotId → Tick → State → State} (hP : ∀ s, Scheduled F B s → P s)
    (hfire : ∀ v s, Scheduled (insert i F) B s → P (fireNow i v s)) : P (armStep origin fireNow i s) := by
  have hout : armOutcome s i ≠ .passed → ∀ t, i ∉ s.dueList t := fun ho =>
    h.not_listed_of_not_armed (not_armed_of_outcome ho)
  unfold Machine.armStep
  dsimp only
  split
  case h_1 => exact hP s h
  case h_2 ho =>
    exact hP _ (h.setSlot_disarmed (hout (by simp [ho])) (by simp [armedSlot]))
  case h_3 ho => exact hP _ (h.arm (hout (by simp [ho])) hi rfl)
  case h_4 => exact hP _ (h.of_view (by simp))
  case h_5 ho => exact hfire _ _ (h.setSlot_inHand (hout (by simp [ho])) _)

/-! ### Inside a batch -/

/-- The entries of a batch record that are being fired: waiting, or in its chain (R68). -/
def inHand (b : BatchRecord) : Set SlotId := {j | j ∈ b.waiting ∨ j ∈ b.chain}

/-- The lists are sound, and the innermost batch record is `b` but for what its fires have deferred. -/
def InBatch (F : Set SlotId) (b : BatchRecord) (rest : List BatchRecord) (s : State) : Prop :=
  ∃ d, Scheduled F ({ b with deferred := d } :: rest) s

theorem Scheduled.inBatch (h : Scheduled F (b :: rest) s) : InBatch F b rest s := ⟨b.deferred, h⟩

theorem InBatch.of_view {s' : State} (h : InBatch F b rest s) (hv : schedView s' = schedView s) : InBatch F b rest s' :=
  h.imp fun _ hd => hd.of_view hv

theorem Scheduled.updateBatch (h : Scheduled F (b :: rest) s) (f : BatchRecord → BatchRecord) :
    Scheduled F (f b :: rest) (updateBatch f s) := by
  unfold Machine.updateBatch
  split
  case h_1 hb => rw [h.batches] at hb; cases hb
  case h_2 b' rest' hb =>
    obtain ⟨rfl, rfl⟩ := List.cons.inj (h.batches.symm.trans hb)
    exact h.setBatches _

theorem InBatch.addDeferred (h : InBatch F b rest s) (op : Deferred) : InBatch F b rest (addDeferred op s) := by
  obtain ⟨d, hd⟩ := h
  exact ⟨d ++ [op], hd.updateBatch fun b => { b with deferred := b.deferred ++ [op] }⟩

theorem InBatch.fireLoad (h : InBatch F b rest s) (r : Record) : InBatch F b rest (fireLoad r s) := by
  unfold Machine.fireLoad
  split
  · exact h
  · split
    · exact h.addDeferred _
    · exact h.imp fun _ hd => hd.loadTimebase _ _

theorem InBatch.fireAction (h : InBatch F b rest s) {groupArm : BitVec 3 → State → State}
    (hg : ∀ g, InBatch F b rest (groupArm g s)) (r : Record) (v : Tick) :
    InBatch F b rest (fireAction groupArm r v s).1 := by
  unfold Machine.fireAction
  split
  case h_1 => exact h
  case h_2 | h_3 | h_4 | h_5 => exact h.of_view rfl
  case h_6 => exact h.fireLoad r
  case h_7 =>
    unfold fireStep
    split
    · exact h
    · exact h.addDeferred _
  case h_8 => exact hg _
  case h_9 => exact h.imp fun _ hd => hd.cancelMembers _
  case h_10 => exact h
  case h_11 => exact h.of_view (schedView_openChannel _ s)
  case h_12 => exact h.of_view (schedView_closeChannel _ s)

/-- The pass of an ARM_GROUP action keeps the lists sound: it takes no slot that is being fired (R51, R55). -/
theorem InBatch.groupArmPass (h : InBatch (inHand b) b rest s) {fireNow : SlotId → Tick → State → State}
    (hfire : ∀ j v s, j ∉ inHand b → InBatch (insert j (inHand b)) b rest s → InBatch (inHand b) b rest (fireNow j v s))
    (g : BitVec 3) : InBatch (inHand b) b rest (groupArmPass fireNow g s) := by
  unfold Machine.groupArmPass
  generalize allSlots = l
  induction l generalizing s with
  | nil => exact h
  | cons j l ih =>
    refine ih (s := if armTakes g s j then _ else _) ?_
    split
    case isTrue ht =>
      obtain ⟨d, hd⟩ := h
      have hj : j ∉ inHand b := by
        intro hm
        have hb : beingFired s j = true := by
          simp only [beingFired, hd.batches, List.any_cons, Bool.or_eq_true, List.contains_iff_mem]
          exact .inl hm
        simp [armTakes, hb] at ht
      exact hd.armStep hj .action (fun s hs => ⟨d, hs⟩) fun v s hs => hfire j v s hj ⟨d, hs⟩
    case isFalse => exact h

/-! ### One fire -/

theorem schedView_fireReport (v : Tick) (late : Bool) (a : Answer) :
    schedView (fireReport i v late a s) = schedView s := by
  unfold fireReport
  dsimp only
  split <;> simp

theorem schedView_fireNotify : schedView (fireNotify i s) = schedView s := by
  unfold fireNotify
  split <;> simp

/-- The last step of a fire puts the entry in hand back: it retires, or joins its list again (R82, R83). -/
theorem Scheduled.fireSettle (h : Scheduled (insert i F) B s) (hi : i ∉ F) (v : Tick) :
    Scheduled F B (fireSettle i v s) := by
  unfold Machine.fireSettle
  dsimp only
  split
  · exact h.setSlot_givenUp (retiredSlot_not_armed _)
  · have harmed : Scheduled (insert i F) B (s.setSlot i (rearmedSlot v (s.slot i))) := by
      have := h.setSlot_inHand (h.not_listed_of_mem (Set.mem_insert i F)) (rearmedSlot v (s.slot i))
      rwa [Set.insert_idem] at this
    exact harmed.joinList hi (by simp [rearmedSlot])

/-- A chain of slots, each once, that leaves one out is shorter than the table. -/
theorem chain_length_lt {l : List SlotId} (hl : l.Nodup) (hi : i ∉ l) : l.length < 32 := by
  have h := (List.nodup_cons.mpr ⟨hi, hl⟩).length_le_card
  rw [Fintype.card_fin, List.length_cons] at h
  exact h

/-- A fire settles the entry in hand, however many fires at once it nests; the bound of the chain is never met, since the
chain holds no slot twice (R51). -/
theorem fire_inBatch (n : Nat) {b : BatchRecord} (h : InBatch (insert i (inHand b)) b rest s) (hi : i ∉ inHand b)
    (hchain : b.chain.Nodup) (hn : 32 ≤ n + b.chain.length) (v : Tick) (late : Bool) :
    InBatch (inHand b) b rest (fire n i v late s) := by
  have hic : i ∉ b.chain := fun hm => hi (.inr hm)
  induction n generalizing i b s v late with
  | zero => have := chain_length_lt hchain hic; omega
  | succ n ih =>
    set b' : BatchRecord := { b with chain := b.chain ++ [i] } with hb'
    have hhand : inHand b' = insert i (inHand b) := by
      ext j; simp only [inHand, hb', Set.mem_ofPred_eq, Set.mem_insert_iff, List.mem_append, List.mem_singleton]; tauto
    have hchain' : b'.chain.Nodup := by
      rw [hb']
      exact List.nodup_append.mpr ⟨hchain, List.nodup_singleton i, fun a ha c hc e => hic (List.mem_singleton.mp hc ▸ e ▸ ha)⟩
    have hn' : 32 ≤ n + b'.chain.length := by simp [hb']; omega
    have hentered : InBatch (inHand b') b' rest (enterChain i s) := by
      obtain ⟨d, hd⟩ := h
      exact ⟨d, hhand ▸ hd.updateBatch fun b => { b with chain := b.chain ++ [i] }⟩
    have hacted := hentered.fireAction (groupArm := groupArmPass fun j w s => fire n j w true s)
      (fun g => hentered.groupArmPass (fun j w s hj hs => ih hs hj hchain' hn' w true fun hm => hj (.inr hm)) g)
      (s.slot i).record v
    obtain ⟨d, hd⟩ := hacted.of_view ((schedView_fireNotify (i := i)).trans (schedView_fireReport v late _))
    have hsettled := (hhand ▸ hd).fireSettle hi v
    have hfilter : (b.chain ++ [i]).filter (· ≠ i) = b.chain := by
      rw [List.filter_append, List.filter_eq_self.mpr fun j hj => by simpa using fun e : j = i => hic (e ▸ hj)]
      simp
    have hleft : Scheduled (inHand b)
        ({ b with chain := (b.chain ++ [i]).filter (· ≠ i), deferred := d } :: rest) (fire (n + 1) i v late s) :=
      hsettled.updateBatch fun b => { b with chain := b.chain.filter (· ≠ i) }
    rw [hfilter] at hleft
    exact ⟨d, hleft⟩

/-! ### A batch to its end -/

/-- The waiting entries of a batch fire one by one, and none is in hand at the end (R68, R70). -/
theorem fireWaiting_inBatch (v : Tick) {b : BatchRecord} (l : List SlotId) (hl : l.Nodup) (hc : b.chain = [])
    (h : InBatch {j | j ∈ l} { b with waiting := l } rest s) :
    InBatch ∅ { b with waiting := [] } rest (fireWaiting v l s) := by
  induction l generalizing s with
  | nil => exact by simpa [fireWaiting] using h
  | cons i l ih =>
    obtain ⟨hi, hl⟩ := List.nodup_cons.mp hl
    have hhand : inHand { b with waiting := l } = {j | j ∈ l} := by simp [inHand, hc]
    have hhead : {j | j ∈ i :: l} = insert i {j | j ∈ l} := by
      ext j; simp only [List.mem_cons, Set.mem_ofPred_eq, Set.mem_insert_iff]
    obtain ⟨d, hd⟩ := h
    have hbegun : InBatch (insert i {j | j ∈ l}) { b with waiting := l } rest
        (updateBatch (fun b => { b with waiting := l }) s) :=
      ⟨d, hhead ▸ hd.updateBatch fun b => { b with waiting := l }⟩
    rw [← hhand] at hbegun
    have hfired := fire_inBatch Config.chainLimit hbegun (by rw [hhand]; exact hi) (by simp [hc])
      (by simp [hc, Config.chainLimit]) v false
    rw [hhand] at hfired
    exact ih hl hfired

/-- The deferred operations of a batch keep the lists sound, when a STEP request does. -/
theorem applyDeferred_inBatch {request : State → State} (hr : ∀ B s, Scheduled ∅ B s → Scheduled ∅ B (request s))
    (t : Timebase) (l : List Deferred) (h : InBatch ∅ b rest s) : InBatch ∅ b rest (applyDeferred request t l s) := by
  induction l generalizing s with
  | nil => exact h
  | cons op l ih =>
    obtain ⟨d, hd⟩ := h
    have hbegun := hd.updateBatch fun b => { b with deferred := l }
    cases op with
    | load v => exact ih ⟨l, hbegun.loadTimebase t v⟩
    | step => exact ih ⟨l, hr _ _ hbegun⟩

theorem applyCollected_inBatch {request : State → State} (hr : ∀ B s, Scheduled ∅ B s → Scheduled ∅ B (request s))
    (t : Timebase) (h : InBatch ∅ b rest s) : InBatch ∅ b rest (applyCollected request t s) := by
  unfold applyCollected
  split
  · exact h
  · exact applyDeferred_inBatch hr t _ h

/-- A batch taken to its end leaves none of its entries in hand, and its record is given up (R87). -/
theorem Scheduled.finishBatch {request : State → State} (hr : ∀ B s, Scheduled ∅ B s → Scheduled ∅ B (request s))
    (h : Scheduled {j | j ∈ b.waiting} (b :: rest) s) (hw : b.waiting.Nodup) (hc : b.chain = []) :
    Scheduled ∅ rest (finishBatch request s) := by
  unfold Machine.finishBatch
  split
  case h_1 hb => rw [h.batches] at hb; cases hb
  case h_2 b' rest' hb =>
    obtain ⟨rfl, rfl⟩ := List.cons.inj (h.batches.symm.trans hb)
    obtain ⟨d, hd⟩ := applyCollected_inBatch hr b.timebase (fireWaiting_inBatch b.value b.waiting hw hc h.inBatch)
    exact hd.setBatches rest

/-! ### Arrivals -/

/-- The batch that an arrival onto a value takes out of the list of its timebase (R67). -/
def dueAt (t : Timebase) (v : Tick) (s : State) : List SlotId :=
  (s.dueList t).filter fun i => decide ((s.slot i).nextDue = v)

/-- An arrival keeps the order of what it leaves in the list, each entry being one nearer, and has its batch in hand. -/
theorem Scheduled.beginArrival (h : Scheduled ∅ B s) (t : Timebase) :
    Scheduled {j | j ∈ dueAt t (s.tbValue t + 1#24) s}
      (⟨t, s.tbValue t + 1#24, dueAt t (s.tbValue t + 1#24) s, [], []⟩ :: B)
      (beginArrival t s) := by
  obtain rfl := h.batches
  set v := s.tbValue t + 1#24 with hv
  set s₁ := (s.setTbValue t v).setDueList t ((s.dueList t).filter fun i => decide ((s.slot i).nextDue ≠ v)) with hs₁
  have hlist : s₁.dueList t = (s.dueList t).filter fun i => decide ((s.slot i).nextDue ≠ v) :=
    State.dueList_setDueList _ _ _
  have hvalue : s₁.tbValue t = v := State.tbValue_setTbValue _ _ _
  have hdist : ∀ j ∈ s₁.dueList t, entryDistance s₁ t j + 1 = entryDistance s t j := by
    intro j hj
    rw [hlist, List.mem_filter, decide_eq_true_eq] at hj
    simp only [entryDistance, hvalue]
    exact distance_advance hj.2
  have h₁ : Scheduled (∅ ∪ {j | j ∈ dueAt t v s}) s₁.sched.batches s₁ := by
    refine h.relist t (fun _ => rfl) (fun u hu => ?_) (fun j => ?_) (fun j hj => ?_) ?_ ?_
    · exact ⟨State.dueList_setDueList_other _ _ _ _ hu, State.tbValue_setTbValue_other _ _ _ _ hu⟩
    · rw [hlist]
      simp only [dueAt, List.mem_filter, decide_eq_true_eq, Set.mem_ofPred_eq]
      tauto
    · rw [hlist, List.mem_filter, decide_eq_true_eq] at hj
      simp [dueAt, hj.2]
    · rw [hlist]
      exact (h.nodup t).filter _
    · have := (h.ordered t).filter fun i => decide ((s.slot i).nextDue ≠ v)
      rw [← hlist] at this
      refine this.imp_of_mem fun ha hb hab => ?_
      have := hdist _ ha
      have := hdist _ hb
      omega
  rw [Set.empty_union] at h₁
  unfold Machine.beginArrival raiseWrap takeBatch
  dsimp only
  rw [← hv]
  split
  all_goals exact (h₁.setBatches _).of_view rfl

theorem dueAt_nodup (h : Scheduled F B s) (t : Timebase) (v : Tick) : (dueAt t v s).Nodup := (h.nodup t).filter _

theorem Scheduled.wholeArrival {request : State → State} (hr : ∀ B s, Scheduled ∅ B s → Scheduled ∅ B (request s))
    (h : Scheduled ∅ B s) (t : Timebase) : Scheduled ∅ B (wholeArrival request t s) :=
  Scheduled.finishBatch hr (b := ⟨t, s.tbValue t + 1#24, dueAt t (s.tbValue t + 1#24) s, [], []⟩)
    ((h.beginArrival t).of_view (by simp)) (dueAt_nodup h t _) rfl

/-- A STEP request is a whole arrival of TB2, or nothing (R34). -/
theorem Scheduled.stepRequest (h : Scheduled ∅ B s) : Scheduled ∅ B (stepRequest s) := by
  unfold Machine.stepRequest
  split
  · exact h.wholeArrival (fun _ _ hs => hs) .step
  · exact h

/-- A fire at once that a host command makes is a batch of the one entry in hand (R49, R90). -/
theorem Scheduled.hostFireNow (h : Scheduled (insert i ∅) B s) (v : Tick) : Scheduled ∅ B (hostFireNow i v s) := by
  set b : BatchRecord := ⟨(s.slot i).record.timebase, v, [], [], []⟩ with hb
  have hhand : inHand b = ∅ := by simp [inHand, hb]
  have hopened : InBatch (insert i (inHand b)) b s.sched.batches (s.setBatches (b :: s.sched.batches)) := by
    rw [hhand]
    exact (h.setBatches _).inBatch
  have hfired := fire_inBatch Config.chainLimit hopened (by simp [hhand]) .nil (by simp [hb, Config.chainLimit]) v true
  rw [hhand] at hfired
  obtain ⟨d, hd⟩ := applyCollected_inBatch (fun _ _ => Scheduled.stepRequest) (s.slot i).record.timebase hfired
  rw [← h.batches]
  exact hd.setBatches _

end Sys2Proof.ActionTable
end

section
/-!
PROOFS. Every step keeps the due lists sound (O59). Each command first finishes what an arrival has left and so starts from a
quiet scheduler: no batch record held and no slot in hand. Its own work leaves the scheduler quiet, or opens one arrival.
-/
namespace Sys2Proof.ActionTable

open Sys2Proof.Machine Sys2Proof.Safety

section

variable {s s' : State} {i : SlotId}

/-- No batch record is held, no slot is in hand, and the due lists are sound. -/
abbrev Quiet (s : State) : Prop := Scheduled ∅ [] s

theorem quiet_of_initial (h : s.sched = Scheduler.initial) : Quiet s := by
  have hslot : ∀ i, s.slot i = Slot.empty := slot_of_initial h
  have hlist : ∀ t, s.dueList t = [] := fun t => by
    rw [State.dueList, h]
    cases t <;> rfl
  refine ⟨fun t => ?_, fun t j hj => ?_, fun t => ?_, fun j hj => ?_, ?_⟩
  · rw [hlist]; exact .nil
  · rw [hlist] at hj; cases hj
  · rw [hlist]; exact .nil
  · rw [hslot] at hj; cases hj
  · rw [h]; rfl

/-! ### Between commands -/

theorem mem_allTimebases (t : Timebase) : t ∈ allTimebases := by cases t <;> decide

theorem beingFired_nil (h : s.sched.batches = []) (i : SlotId) : beingFired s i = false := by simp [beingFired, h]

theorem beingFired_single {b : BatchRecord} (h : s.sched.batches = [b]) (i : SlotId) :
    beingFired s i = true ↔ i ∈ inHand b := by simp [beingFired, h, inHand]

/-- The statements' soundness says that the slots in hand are those being fired. -/
theorem schedulerSound_iff :
    SchedulerSound s ↔ Scheduled {j | beingFired s j = true} s.sched.batches s ∧ BatchSound s := by
  constructor
  · rintro ⟨hl, hb, hp⟩
    have hlist := fun t => hl t (mem_allTimebases t)
    refine ⟨⟨fun t => (hlist t).1, fun t j hj => ?_, fun t => (hlist t).2.2, hp, rfl⟩, hb⟩
    obtain ⟨ha, ht, hf⟩ := (hlist t).2.1 j hj
    exact ⟨ha, ht, by simp [hf]⟩
  · rintro ⟨h, hb⟩
    refine ⟨fun t _ => ⟨h.nodup t, fun j hj => ?_, h.ordered t⟩, hb, h.placed⟩
    obtain ⟨ha, ht, hf⟩ := h.entry t j hj
    exact ⟨ha, ht, by simpa using hf⟩

theorem Scheduled.schedulerSound (h : Quiet s) : SchedulerSound s := by
  have hF : {j | beingFired s j = true} = ∅ := by ext j; simp [beingFired_nil h.batches]
  exact schedulerSound_iff.mpr ⟨by rw [hF, h.batches]; exact h, .inl h.batches⟩

theorem schedulerSound_of_view (h : SchedulerSound s) (hv : schedView s' = schedView s) : SchedulerSound s' := by
  obtain ⟨h, hb⟩ := schedulerSound_iff.mp h
  obtain ⟨hs, ht⟩ := Prod.mk.inj hv
  have hF : beingFired s' = beingFired s := by funext j; rw [beingFired, hs, beingFired]
  refine schedulerSound_iff.mpr ⟨by rw [hF, hs]; exact h.of_view hv, ?_⟩
  simpa only [BatchSound, State.slot, State.tbValue, hs, ht] using hb

/-- An arrival of TB0 leaves one batch record, with its whole batch waiting (R67, R68). -/
theorem Scheduled.beginArrival_sound (h : Quiet s) : SchedulerSound (Machine.beginArrival .clock s) := by
  set v := s.tbValue .clock + 1#24 with hv
  have ha := h.beginArrival .clock
  have hF : {j | beingFired (Machine.beginArrival .clock s) j = true} = {j | j ∈ dueAt .clock v s} := by
    ext j
    simp [beingFired_single ha.batches, inHand, hv]
  have hvalue : (Machine.beginArrival .clock s).tbValue .clock = v := by
    unfold Machine.beginArrival raiseWrap
    dsimp only
    split <;> rfl
  have hslot : ∀ j, (Machine.beginArrival .clock s).slot j = s.slot j := fun j => by
    unfold Machine.beginArrival raiseWrap
    dsimp only
    split <;> rfl
  refine schedulerSound_iff.mpr ⟨by rw [hF, ha.batches]; exact ha, .inr ?_⟩
  refine ⟨_, by rw [ha.batches]; exact .head _, ha.batches, rfl, hvalue.symm, rfl, rfl, dueAt_nodup h _ _, fun j hj => ?_⟩
  obtain ⟨hj, hdue⟩ := List.mem_filter.mp hj
  obtain ⟨harmed, htb, -⟩ := h.entry .clock j hj
  rw [hslot]
  exact ⟨harmed, htb, of_decide_eq_true hdue⟩

/-- The work of an arrival takes its batch to the end and leaves the scheduler quiet. -/
theorem quiet_takeBatchNotice (h : SchedulerSound s) : Quiet (takeBatchNotice s) := by
  obtain ⟨h, hb⟩ := schedulerSound_iff.mp (schedulerSound_of_view h (schedView_takeLineNotice s))
  unfold takeBatchNotice finishBatches
  obtain hb | ⟨b, -, hb, -, -, hchain, -, hn, -⟩ := hb
  · have hF : {j | beingFired (takeLineNotice s) j = true} = ∅ := by ext j; simp [beingFired_nil hb]
    rw [hF, hb] at h
    rw [hb]
    exact h
  · have hF : {j | beingFired (takeLineNotice s) j = true} = {j | j ∈ b.waiting} := by
      ext j
      simp [beingFired_single hb, inHand, hchain]
    rw [hF, hb] at h
    rw [hb]
    exact h.finishBatch (fun _ _ => Scheduled.stepRequest) hn hchain

theorem quiet_settle (h : SchedulerSound s) : Quiet (settle s) :=
  (quiet_takeBatchNotice h).of_view (schedView_takeStallNotice _)

/-! ### The prescaler -/

theorem completePhase_sound (h : Quiet s) : SchedulerSound (completePhase s) := by
  unfold completePhase
  split
  · exact schedulerSound_of_view (h.of_view (schedView_setPhase 0 s)).beginArrival_sound rfl
  · exact h.schedulerSound

theorem clockPeriod_sound (h : Quiet s) : SchedulerSound (clockPeriod s) := by
  unfold clockPeriod
  split
  · split
    · exact schedulerSound_of_view h.schedulerSound rfl
    · exact completePhase_sound h
  · exact h.schedulerSound

/-! ### The host commands -/

theorem quiet_finishCommand (h : Quiet s) (rec : CommandRecord) (status : CommandStatus) (detail : Byte) :
    Quiet (finishCommand rec status detail s) := h.of_view rfl

theorem quiet_hostArmStep (h : Quiet s) (origin : ArmOrigin) (i : SlotId) : Quiet (armStep origin hostFireNow i s) :=
  h.armStep (P := Quiet) (Set.notMem_empty i) origin (fun _ hs => hs) fun v _ hs => hs.hostFireNow v

theorem quiet_writeSlotWork (h : Quiet s) (rec : CommandRecord) (d : Draft) : Quiet (writeSlotWork rec d s) := by
  unfold writeSlotWork
  dsimp only
  split
  case isTrue => exact quiet_finishCommand h ..
  case isFalse hc =>
    split
    · exact quiet_finishCommand h ..
    · have ha : (s.slot (argumentSlot rec.argument)).state ≠ .armed := fun ha => hc ((isCancellable_iff _).mpr (.inl ha))
      exact quiet_finishCommand (h.setSlot_disarmed (h.not_listed_of_not_armed ha) (by simp)) ..

theorem quiet_freeSlotWork (h : Quiet s) (rec : CommandRecord) : Quiet (freeSlotWork rec s) := by
  unfold freeSlotWork
  dsimp only
  split
  case h_1 | h_2 | h_3 => exact quiet_finishCommand h ..
  case h_4 hs | h_5 hs =>
    have ha : (s.slot (argumentSlot rec.argument)).state ≠ .armed := by simp [hs]
    exact quiet_finishCommand (h.setSlot_disarmed (h.not_listed_of_not_armed ha) (by simp [Slot.empty])) ..

theorem quiet_armGroupWork (h : Quiet s) (rec : CommandRecord) (next count : Nat) :
    Quiet (armGroupWork rec next count s) := by
  unfold armGroupWork
  split
  case isTrue hn =>
    have hw : Quiet (groupStepWork (argumentGroup rec.argument) ⟨next, hn⟩ s) := by
      unfold groupStepWork
      split
      · exact quiet_hostArmStep h _ _
      · exact h
    dsimp only
    split
    · exact hw.of_view rfl
    · exact quiet_finishCommand hw ..
  case isFalse => exact quiet_finishCommand h ..

theorem schedView_releaseLinesWork (rec : CommandRecord) (s : State) : schedView (releaseLinesWork rec s) = schedView s := by
  unfold releaseLinesWork
  split <;> rfl

/-- A step or the completion of any host command leaves the scheduler quiet. -/
theorem quiet_commandWork (h : Quiet s) (rec : CommandRecord) : Quiet (commandWork rec s) := by
  unfold commandWork
  split
  case h_1 captured _ => exact quiet_writeSlotWork h rec captured
  case h_2 => exact h.of_view rfl
  case h_3 => exact quiet_freeSlotWork h rec
  case h_4 => exact quiet_finishCommand (quiet_hostArmStep h _ _) ..
  case h_5 next count _ => exact quiet_armGroupWork h rec next count
  case h_6 =>
    unfold cancelWork
    dsimp only
    split
    · exact quiet_finishCommand (h.cancelEntry _) ..
    · exact quiet_finishCommand h ..
  case h_7 => exact quiet_finishCommand (h.cancelMembers _) ..
  case h_8 =>
    unfold loadTbWork
    split
    · exact quiet_finishCommand h ..
    · exact quiet_finishCommand (h.loadTimebase _ _) ..
  case h_9 =>
    unfold measStartWork
    dsimp only
    split <;> exact h.of_view (by simp)
  case h_10 =>
    unfold measStopWork
    dsimp only
    split <;> exact h.of_view (by simp)
  case h_11 => exact h.of_view rfl
  case h_12 => exact h.of_view (schedView_releaseLinesWork rec s)
  case h_13 => exact quiet_of_initial rfl

theorem quiet_workIf (h : Quiet s) (c : CommandCode) : Quiet (workIf c s) := by
  unfold workIf
  split
  · exact h
  · split
    · exact quiet_commandWork h _
    · exact h

/-! ### Edges -/

theorem quiet_edgeTimebase (h : Quiet s) (line : Fin 4) (e : Edge) : Quiet (edgeTimebase line e s) := by
  unfold edgeTimebase
  split
  · exact h.loadTimebase _ _
  · split
    · exact h.wholeArrival (fun _ _ => Scheduled.stepRequest) .edge
    · exact h

theorem quiet_releaseHeld (h : Quiet s) (line : Fin 4) (e : Edge) : Quiet (releaseHeld line e s) := by
  unfold releaseHeld
  generalize allSlots = l
  induction l generalizing s with
  | nil => exact h
  | cons i l ih =>
    refine ih (s := if edgeReleases line e (s.slot i) then _ else _) ?_
    split
    case isTrue hr =>
      have ha : (s.slot i).state ≠ .armed := by
        intro ha
        simp [edgeReleases, ha] at hr
      exact h.arm (h.not_listed_of_not_armed ha) (Set.notMem_empty i) rfl
    case isFalse => exact h

theorem quiet_takeClaim (h : Quiet s) (c : Claim) : Quiet (takeClaim c s) := by
  unfold takeClaim
  split
  · split
    · exact quiet_settle (schedulerSound_of_view (clockPeriod_sound h) (schedView_takeStallNotice _))
    · exact quiet_settle (clockPeriod_sound h)
  · unfold commandStepInside
    split
    · exact h
    · split
      case h_1 | h_2 => exact h
      all_goals exact quiet_commandWork h _
  · exact h.of_view (by simp)
  · exact h.of_view (by simp)

theorem quiet_takeClaims (h : Quiet s) (cs : List Claim) : Quiet (takeClaims cs s) := by
  unfold takeClaims
  induction cs generalizing s with
  | nil => exact h
  | cons c cs ih => exact ih (quiet_takeClaim h c)

/-- An edge keeps the scheduler quiet through its three steps and the claims between them (R111, R112). -/
theorem quiet_inputSeen (h : Quiet s) (line : Fin 4) (level : Level) (c₁ c₂ : List Claim) :
    Quiet (inputSeen line level c₁ c₂ s) := by
  unfold inputSeen
  split
  · exact h
  · split
    · exact h.of_view rfl
    · have hseen : Quiet (setLastLevel line level s) := h.of_view rfl
      have hclaimed := quiet_takeClaims (quiet_edgeTimebase hseen line (edgeTo level)) c₁
      have hmet := quiet_takeClaims (quiet_releaseHeld hclaimed line (edgeTo level)) c₂
      exact hmet.of_view (schedView_channelsEdge line (edgeTo level) _)

/-! ### Whole commands -/

theorem taken_sound {work : State → State} (hw : ∀ s, Quiet s → SchedulerSound (work s)) (hs : SchedulerSound s)
    (h : taken work s = .next s') : SchedulerSound s' := by
  cases h
  exact hw _ (quiet_settle hs)

theorem taken_view_sound {work : State → State} (hw : ∀ s, schedView (work s) = schedView s) (hs : SchedulerSound s)
    (h : taken work s = .next s') : SchedulerSound s' :=
  taken_sound (fun u hu => (hu.of_view (hw u)).schedulerSound) hs h

theorem exec_keeps_schedulerSound (c : Instr) (hs : SchedulerSound s) (h : exec c s = .next s') : SchedulerSound s' := by
  cases c
  case powerOnReset => cases h; exact (quiet_of_initial rfl).schedulerSound
  case batchFire =>
    cases h
    split
    · exact hs
    · exact (quiet_takeBatchNotice hs).schedulerSound
  case pulseEnd => cases h; exact schedulerSound_of_view hs (schedView_takeLineNotice s)
  case stall => cases h; exact schedulerSound_of_view hs (schedView_takeStallNotice s)
  case tb0Arrival => exact taken_sound (fun _ => completePhase_sound) hs h
  case clkPeriod => exact taken_sound (fun _ => clockPeriod_sound) hs h
  case inputEdge line level c₁ c₂ =>
    exact taken_sound (fun _ hu => (quiet_inputSeen hu line level c₁ c₂).schedulerSound) hs h
  case safeAssertion => exact taken_view_sound schedView_safeAsserted hs h
  case safeRelease => exact taken_view_sound schedView_safeReleased hs h
  case stageWrite index data => exact taken_view_sound (schedView_stageWrite index data) hs h
  case tbHiRead | reportDataRead | claim => exact taken_view_sound (schedView_windowRead _) hs h
  case badIndex access =>
    cases access with
    | read => exact taken_view_sound (work := windowRead 0x17#5) (schedView_windowRead _) hs h
    | write w => exact taken_view_sound (work := windowWrite 0x17#5 w) (schedView_windowWrite _ w) hs h
  case writeSlotCompletion | readSlotCompletion | freeSlotCompletion | armCompletion | armGroupStep | cancelCompletion
      | cancelGroupCompletion | loadTbCompletion | measStartCompletion | measStopCompletion | flushReportsCompletion
      | releaseLinesCompletion | engineResetCompletion =>
    exact taken_sound (fun _ hu => (quiet_workIf hu _).schedulerSound) hs h
  case complete | lineForceWrite | faultWrite | windowWrite | timebaseEnablesWrite | prescalerWrite | edgeSelectionsWrite
      | lineConfigurationWrite | channelConfigurationWrite | channelStatusWrite | notificationLevelsWrite
      | reportThresholdWrite =>
    exact taken_view_sound (schedView_windowWrite _ _) hs h
  all_goals exact taken_view_sound (schedView_commandWrite _) hs h

end

/-- Settles O59: inside a command the lists are sound but for the slots in hand, and at its end none is in hand but those of a
batch record held. -/
theorem dueListsStaySound : Obligations.DueListsStaySound := by
  intro s t hs h
  unfold step at h
  split at h
  case h_1 => cases h; exact hs
  case h_2 rest _ => exact exec_keeps_schedulerSound _ (schedulerSound_of_view hs (s' := { s with pending := rest }) rfl) h

end Sys2Proof.ActionTable
end

section
/-!
PROOFS. The resets (O4, O60), and the host commands of the action table at their acceptance and at their completions (O7,
O10, O11, O13, O14).
-/
namespace Sys2Proof.ActionTable

open Sys2Proof.Machine Sys2Proof.Safety

/-! ### Resets -/

/-- Settles O4: the power-on state is the statement's record, item by item. -/
theorem powerOnResetSetsEveryItem : Obligations.PowerOnResetSetsEveryItem := by
  intro ins safeN s
  refine ⟨0#16, ?_⟩
  cases safeN <;> rfl

/-- Settles O60, invariant by invariant. -/
theorem resetStateMeetsTheInvariants : Obligations.ResetStateMeetsTheInvariants := by
  have hidle : Settled State.reset := ⟨rfl, rfl⟩
  have hquiet : Quiet State.reset := quiet_of_initial rfl
  have hslots : ∀ i : SlotId, SlotSound (State.reset.slot i) := fun i => by
    rw [slot_of_initial rfl i]; exact slotSound_empty
  exact ⟨by decide, by decide, by decide, by decide, by decide, by decide, by decide, hslots, trivial,
    hquiet.schedulerSound, hidle⟩

/-! ### Acceptance -/

theorem commandUpper_commandWord (c : CommandCode) (a : Byte) : commandUpper (commandWord c a) = 0#4 := by
  rw [commandUpper, commandWord, BitVec.extractLsb'_append_eq_of_le (by omega)]
  exact BitVec.extractLsb'_append_eq_left

theorem commandBits_commandWord (c : CommandCode) (a : Byte) : commandBits (commandWord c a) = c.bits := by
  rw [commandBits, commandWord, BitVec.extractLsb'_append_eq_of_le (by omega)]
  exact BitVec.extractLsb'_append_eq_right

theorem commandArgument_commandWord (c : CommandCode) (a : Byte) : commandArgument (commandWord c a) = a :=
  BitVec.extractLsb'_append_eq_right

/-- The code of a command word names its command (R199). -/
theorem decodeCommand_commandWord (c : CommandCode) (a : Byte) : decodeCommand (commandWord c a) = some c := by
  rw [decodeCommand, if_pos (commandUpper_commandWord c a), commandBits_commandWord]
  cases c <;> rfl

theorem admits_iff (c : CommandCode) (a : Byte) : c.admits a = true ↔ argumentInRange c a.toNat := by
  have h7 : (a.extractLsb' 0 7).toNat = a.toNat % 128 := by simp [BitVec.extractLsb'_toNat]
  cases c <;> simp [CommandCode.admits, argumentInRange, h7]

/-- Settles O7: the write of the command word is taken, and the job is the one that the command starts. -/
theorem acceptedHostCommandGoesBusy : Obligations.AcceptedHostCommandGoesBusy := by
  intro c a s hs hidle ha
  refine ⟨startJob c s.window.staging, by cases c <;> rfl, by rintro rfl; rfl, by rintro rfl; rfl, ?_⟩
  rw [exec_hostCommand, taken_of_settled hs]
  have hadmits : c.admits a = true := (admits_iff c a).mpr ha
  simp [commandWrite, hidle, decodeCommand_commandWord, commandArgument_commandWord, hadmits, acceptCommand,
    State.setWindow]

/-! ### WRITE_SLOT -/

/-- On a settled state a completion row is the work of its own command in progress. -/
theorem taken_workIf {s : State} {rec : CommandRecord} (hs : Settled s) (he : s.window.engine = some rec) :
    taken (workIf (jobCode rec.job)) s = .next (commandWork rec s) := by
  rw [taken_of_settled hs, workIf_of_engine he]

theorem not_isCancellable_iff (sl : Slot) : isCancellable sl = false ↔ sl.state ≠ .armed ∧ sl.state ≠ .held := by
  simp [isCancellable]

/-- A target out of the range of its kind (condition 3 of R12). -/
theorem targetInRange_eq_false (k : Kind) (target : BitVec 3) :
    targetInRange k target = false ↔
      (k = .loadTb ∧ 2 < target.toNat) ∨ (k = .armGroup ∧ target = 0#3) ∨ (k = .cancelGroup ∧ target = 0#3) ∨
        (k = .measOpen ∧ 3 < target.toNat) ∨ (k = .measClose ∧ 3 < target.toNat) := by
  cases k <;> simp [targetInRange]

theorem toNat_lt_one_iff {w : Nat} (x : BitVec w) : x.toNat < 1 ↔ x = 0#w := by
  rw [Nat.lt_one_iff]
  exact ⟨fun h => BitVec.eq_of_toNat_eq (by simpa using h), fun h => by simp [h]⟩

/-- A PULSE with a width out of range (condition 4 of R12). -/
theorem widthInRange_eq_false (k : Kind) (operand : Tick) :
    widthInRange k operand = false ↔ k = .pulse ∧ (operand = 0#24 ∨ 65535 < operand.toNat) := by
  rw [← toNat_lt_one_iff]
  simp only [widthInRange, ne_eq, Bool.or_eq_false_iff, Bool.and_eq_false_iff, decide_eq_false_iff_not, Nat.not_le, not_not]

/-- A hold with an offset out of range (condition 8 of R12). -/
theorem holdInRange_eq_false (h : HoldEdge) (due : Tick) :
    holdInRange h due = false ↔ h ≠ .absent ∧ (due = 0#24 ∨ 8388608 < due.toNat) := by
  rw [← toNat_lt_one_iff]
  simp only [holdInRange, Bool.or_eq_false_iff, Bool.and_eq_false_iff, decide_eq_false_iff_not, Nat.not_le]
  rfl

/-- A captured record is refused under exactly the eight conditions of R12. -/
theorem validRecord_eq_none_iff (d : Draft) : validRecord d = none ↔ InvalidRecord d := by
  unfold validRecord InvalidRecord
  split
  case h_1 k t hk ht =>
    simp [hk, ht, ← targetInRange_eq_false, ← widthInRange_eq_false, ← holdInRange_eq_false, Config.periodLimit]
    grind
  case h_2 h =>
    cases hk : d.kind <;> cases ht : d.timebase <;> simp_all

/-- Settles O10: the state of the slot is asked first, then the eight conditions of R12. -/
theorem writeSlotCompletionStoresOrRefuses : Obligations.WriteSlotCompletionStoresOrRefuses := by
  intro s d a i hs he hi
  have hslot : argumentSlot a = i := argumentSlot_eq (by omega)
  have hwork : exec .writeSlotCompletion s = .next (writeSlotWork ⟨.writeSlot d, a⟩ d s) := taken_workIf hs he
  rw [hwork]
  unfold writeSlotWork
  simp only [hslot, finishCommand_eq]
  refine ⟨fun hc => ?_, fun h1 h2 hinv => ?_, fun h1 h2 hinv => ?_⟩
  · rw [if_pos ((isCancellable_iff _).mpr hc)]
    rfl
  · have hc := (not_isCancellable_iff _).mpr ⟨h1, h2⟩
    simp only [hc, (validRecord_eq_none_iff d).mpr hinv]
    rfl
  · have hc := (not_isCancellable_iff _).mpr ⟨h1, h2⟩
    obtain ⟨r, hr⟩ := Option.ne_none_iff_exists'.mp (mt (validRecord_eq_none_iff d).mp hinv)
    obtain ⟨k, t, hk, ht, rfl⟩ := validRecord_some hr
    refine ⟨k, t, hk, ht, ?_⟩
    simp only [hc, hr]
    rfl

/-! ### FREE_SLOT and CANCEL -/

/-- A cancel takes the entry out of the list of its timebase and retires it by its keep flag. -/
theorem cancelEntry_eq (i : SlotId) (s : State) :
    cancelEntry i s =
      (s.setSlot i (if (s.slot i).record.keep then { s.slot i with state := .spent } else Slot.empty)).setDueList
        (s.slot i).record.timebase ((s.dueList (s.slot i).record.timebase).filter (· ≠ i)) := rfl

/-- Settles O13, by the state of the slot. -/
theorem freeSlotAndCancelCompletions : Obligations.FreeSlotAndCancelCompletions := by
  intro s a i hs hi
  have hslot : argumentSlot a = i := argumentSlot_eq (by omega)
  refine ⟨fun he => ?_, fun he => ?_⟩
  · have hwork : exec .freeSlotCompletion s = .next (freeSlotWork ⟨.freeSlot, a⟩ s) := taken_workIf hs he
    rw [hwork]
    unfold freeSlotWork
    simp only [hslot, finishCommand_eq]
    refine ⟨?_, fun hst => by rw [hst]; rfl, ?_⟩
    all_goals
      rintro (hst | hst)
      all_goals rw [hst]; rfl
  · have hwork : exec .cancelCompletion s = .next (cancelWork ⟨.cancel, a⟩ s) := taken_workIf hs he
    rw [hwork]
    unfold cancelWork
    simp only [hslot, finishCommand_eq, cancelEntry_eq]
    refine ⟨fun hc => ?_, fun h1 h2 => ?_⟩
    · rw [if_pos ((isCancellable_iff _).mpr hc)]
      rfl
    · simp only [(not_isCancellable_iff _).mpr ⟨h1, h2⟩]
      rfl

/-! ### CANCEL_GROUP -/

theorem slot_cancelEntry (i j : SlotId) (s : State) :
    (cancelEntry i s).slot j = if i = j then retiredSlot (s.slot j) else s.slot j := by
  unfold cancelEntry retireSlot
  rw [State.slot_setSlot]
  split
  case isTrue h => subst h; rfl
  case isFalse => rfl

theorem dueList_cancelEntry (i : SlotId) (t : Timebase) (s : State) :
    (cancelEntry i s).dueList t =
      (s.dueList t).filter fun j => !(decide (j = i) && decide ((s.slot j).record.timebase = t)) := by
  by_cases ht : t = (s.slot i).record.timebase
  · subst ht
    rw [cancelEntry_eq, State.dueList_setDueList]
    refine List.filter_congr fun j _ => ?_
    by_cases hj : j = i <;> simp [hj]
  · rw [cancelEntry_eq, State.dueList_setDueList_other _ _ _ _ ht]
    refine (List.filter_eq_self.mpr fun j _ => ?_).symm
    by_cases hj : j = i
    · subst hj; simp [Ne.symm ht]
    · simp [hj]

theorem cancelTakes_congr {s s' : State} {i : SlotId} (g : BitVec 3) (hslot : s'.slot i = s.slot i)
    (hb : s'.sched.batches = s.sched.batches) : cancelTakes g s' i = cancelTakes g s i := by
  simp only [cancelTakes, beingFired, hslot, hb]

/-- The cancels of a group over some of the slots: each slot that is taken retires and leaves its list, and nothing but the
scheduler changes. -/
theorem cancelFold_eq (g : BitVec 3) (l : List SlotId) (hl : l.Nodup) (s : State) :
    ∃ t, l.foldl (fun s i => if cancelTakes g s i then cancelEntry i s else s) s = s.setSched t ∧
      t.batches = s.sched.batches ∧
      (∀ j : SlotId, t.slots[j] = if j ∈ l ∧ cancelTakes g s j = true then retiredSlot (s.slot j) else s.slot j) ∧
      ∀ u, t.lists.get u =
        (s.dueList u).filter fun j => !(decide (j ∈ l) && cancelTakes g s j && decide ((s.slot j).record.timebase = u)) := by
  induction l generalizing s with
  | nil => exact ⟨s.sched, rfl, rfl, fun j => by simp [State.slot], fun u => by simp [State.dueList]⟩
  | cons i l ih =>
    obtain ⟨hi, hl⟩ := List.nodup_cons.mp hl
    by_cases hc : cancelTakes g s i = true
    · obtain ⟨t, ht, hb, hslots, hlists⟩ := ih hl (cancelEntry i s)
      have hsl : ∀ j ∈ l, (cancelEntry i s).slot j = s.slot j := fun j hj => by
        rw [slot_cancelEntry, if_neg fun e : i = j => hi (e ▸ hj)]
      have htakes : ∀ j ∈ l, cancelTakes g (cancelEntry i s) j = cancelTakes g s j := fun j hj =>
        cancelTakes_congr g (hsl j hj) rfl
      refine ⟨t, ?_, hb, fun j => ?_, fun u => ?_⟩
      · rw [List.foldl_cons, if_pos hc, ht]
        rfl
      · rw [hslots]
        by_cases hj : j ∈ l
        · simp [hj, hsl j hj, htakes j hj]
        · by_cases hij : i = j
          · subst hij; simp [hi, hc, slot_cancelEntry]
          · simp [hj, Ne.symm hij, slot_cancelEntry, hij]
      · rw [hlists, dueList_cancelEntry, List.filter_filter]
        refine List.filter_congr fun j _ => ?_
        by_cases hj : j ∈ l
        · have : j ≠ i := fun e => hi (e ▸ hj)
          simp [hj, hsl j hj, htakes j hj, this]
        · by_cases hij : j = i
          · subst hij; simp [hi, hc]
          · simp [hj, hij]
    · obtain ⟨t, ht, hb, hslots, hlists⟩ := ih hl s
      have hmem : ∀ j, j ∈ i :: l ∧ cancelTakes g s j = true ↔ j ∈ l ∧ cancelTakes g s j = true := fun j => by
        by_cases hij : j = i
        · subst hij; simp [hc]
        · simp [hij]
      refine ⟨t, ?_, hb, fun j => ?_, fun u => ?_⟩
      · rw [List.foldl_cons, if_neg hc, ht]
      · simp only [hslots, hmem]
      · rw [hlists]
        refine List.filter_congr fun j _ => ?_
        have : (decide (j ∈ i :: l) && cancelTakes g s j) = (decide (j ∈ l) && cancelTakes g s j) := by
          rw [Bool.eq_iff_iff]; simpa using hmem j
        rw [this]

/-- Settles O14, by the fold of the cancels over the slots. -/
theorem cancelGroupCompletionRetiresMembers : Obligations.CancelGroupCompletionRetiresMembers := by
  intro s a g hs he ha hg taken
  have hgroup : argumentGroup a = g := argumentGroup_eq ha
  have htaken : cancelTakes g s = taken := by
    funext i
    rw [Bool.eq_iff_iff]
    simp only [cancelTakes, isMember, isCancellable, beingFired_nil hs.1, Bool.not_false, Bool.and_true, Bool.and_eq_true,
      decide_eq_true_eq, taken]
    refine ⟨fun ⟨⟨_, _, hm⟩, hc⟩ => ⟨hc, hm⟩, fun ⟨hc, hm⟩ => ⟨⟨hg, ?_, hm⟩, hc⟩⟩
    obtain hst | hst := hc <;> simp [hst]
  have hwork : exec .cancelGroupCompletion s = .next (cancelGroupWork ⟨.cancelGroup, a⟩ s) := taken_workIf hs he
  obtain ⟨t, ht, hb, hslots, hlists⟩ := cancelFold_eq g allSlots (List.nodup_finRange 32) s
  refine ⟨t, ?_, hb.trans hs.1, fun i => ?_, fun u => ?_⟩
  · rw [hwork]
    simp only [cancelGroupWork, finishCommand_eq, hgroup, cancelMembers, ht, cancelCount, htaken]
    rfl
  · rw [hslots]
    simp [allSlots, htaken, retiredSlot]
  · rw [hlists]
    simp [allSlots, htaken]

end Sys2Proof.ActionTable
end

section
/-!
PROOFS. The layouts as numbers (R195 to R200): a word of appended fields is the sum of its fields, each in its place. The
staging words of READ_SLOT (O11), and the record captured back from them (O12).
-/
namespace Sys2Proof.ActionTable

open Sys2Proof.Machine Sys2Proof.Safety

/-! ### Fields and words -/

/-- Of two appended fields the upper one counts in units of the lower one's range. -/
theorem toNat_append_eq {m n : Nat} (x : BitVec m) (y : BitVec n) : (x ++ y).toNat = x.toNat * 2 ^ n + y.toNat := by
  rw [BitVec.toNat_append, ← Nat.shiftLeft_add_eq_or_of_lt y.isLt, Nat.shiftLeft_eq]

theorem toNat_bit (b : Bool) : (bit b).toNat = if b then 1 else 0 := by cases b <;> rfl

theorem toNat_kindCode (k : Option Kind) : (kindCode k).toNat = kindNumber k := by
  cases k with
  | none => rfl
  | some k => cases k <;> rfl

theorem toNat_timebaseCode (t : Timebase) : (timebaseCode t).toNat = timebaseNumber t := by cases t <;> rfl

theorem toNat_holdEdgeCode (h : HoldEdge) : (holdEdgeCode h).toNat = holdEdgeNumber h := by cases h <;> rfl

theorem toNat_slotStateCode (st : SlotState) : (slotStateCode st).toNat = slotStateNumber st := by cases st <;> rfl

theorem latePolicyBit_eq (p : LatePolicy) : latePolicyBit p = decide (p = .fireNow) := by cases p <;> rfl

theorem skipPolicyBit_eq (p : SkipPolicy) : skipPolicyBit p = decide (p = .drop) := by cases p <;> rfl

/-- A word is the number that its `toNat` is. -/
theorem eq_ofNat_of_toNat_eq {w : Word} {n : Nat} (h : w.toNat = n) : w = BitVec.ofNat 16 n := by
  rw [← h, BitVec.ofNat_toNat, BitVec.setWidth_eq]

theorem highWord_eq (x : Tick) : (0#8 ++ x.extractLsb' 16 8 : Word) = BitVec.ofNat 16 (x.toNat / 65536) := by
  apply eq_ofNat_of_toNat_eq
  have := x.isLt
  simp only [toNat_append_eq, BitVec.extractLsb'_toNat, BitVec.toNat_ofNat, Nat.shiftRight_eq_div_pow]
  omega

theorem lowWord_eq (x : Tick) : (x.extractLsb' 0 16 : Word) = BitVec.ofNat 16 (x.toNat % 65536) := by
  apply eq_ofNat_of_toNat_eq
  simp

/-! ### READ_SLOT -/

section

variable (run : Bool) (sl : Slot)

theorem slotWords_zero : (slotWords run sl)[0] = (stagingImage run sl)[0] := by
  refine eq_ofNat_of_toNat_eq ?_
  simp only [slotWords, Vector.getElem_mk, List.getElem_toArray, List.getElem_cons_zero, toNat_append_eq, toNat_bit,
    toNat_kindCode, toNat_timebaseCode, latePolicyBit_eq, skipPolicyBit_eq, decide_eq_true_eq]
  split <;> split <;> split <;> split <;> omega

theorem slotWords_one : (slotWords run sl)[1] = (stagingImage run sl)[1] := by
  refine eq_ofNat_of_toNat_eq ?_
  have := sl.record.due.isLt
  simp only [slotWords, Vector.getElem_mk, List.getElem_toArray, List.getElem_cons_zero, List.getElem_cons_succ,
    toNat_append_eq, toNat_bit, toNat_slotStateCode, toNat_holdEdgeCode, BitVec.toNat_ofFin,
    BitVec.extractLsb'_toNat, Nat.shiftRight_eq_div_pow]
  split <;> omega

/-- The staging words of a slot are the numbers that its fields make. -/
theorem slotWords_eq : slotWords run sl = stagingImage run sl := by
  have hnext : ((if run then sl.nextDue else 0#24 : Tick)).toNat = if run then sl.nextDue.toNat else 0 := by
    cases run <;> rfl
  ext1 i hi
  match i, hi with
  | 0, _ => exact slotWords_zero run sl
  | 1, _ => exact slotWords_one run sl
  | 2, _ => exact lowWord_eq _
  | 3, _ => exact highWord_eq _
  | 4, _ => exact lowWord_eq _
  | 5, _ => exact highWord_eq _
  | 6, _ => exact lowWord_eq _
  | 7, _ => rfl
  | 8, _ => exact (highWord_eq _).trans (by rw [hnext]; rfl)
  | 9, _ => exact (lowWord_eq _).trans (by rw [hnext]; rfl)

end

theorem getLsbD_seven (a : Byte) : a.getLsbD 7 = decide (128 ≤ a.toNat) := by
  have := BitVec.msb_eq_decide a
  rwa [BitVec.msb_eq_getLsbD_last] at this

/-- Settles O11. -/
theorem readSlotCompletionCopiesTheSlot : Obligations.ReadSlotCompletionCopiesTheSlot := by
  intro s a i hs he hi
  have hwork : exec .readSlotCompletion s = .next (readSlotWork ⟨.readSlot, a⟩ s) := taken_workIf hs he
  rw [hwork]
  simp only [readSlotWork, finishCommand_eq, argumentSlot_eq hi, getLsbD_seven, slotWords_eq]
  rfl

/-! ### The record captured back -/

theorem kindOfCode_kindCode (k : Kind) : kindOfCode (kindCode (some k)) = some k := by cases k <;> rfl

theorem timebaseOfNat_timebaseCode (t : Timebase) : timebaseOfNat (timebaseCode t).toNat = some t := by cases t <;> rfl

theorem holdEdgeOfCode_holdEdgeCode (h : HoldEdge) : holdEdgeOfCode (holdEdgeCode h) = h := by cases h <;> rfl

theorem latePolicy_of_bit (p : LatePolicy) : (if latePolicyBit p = true then LatePolicy.fireNow else .refuse) = p := by
  cases p <;> rfl

theorem skipPolicy_of_bit (p : SkipPolicy) : (if skipPolicyBit p = true then SkipPolicy.drop else .keep) = p := by
  cases p <;> rfl

theorem getLsbD_bit (b : Bool) : (bit b).getLsbD 0 = b := by cases b <;> rfl

theorem tick_of_words (x : Tick) : (x.extractLsb' 16 8 ++ x.extractLsb' 0 16 : Tick) = x := by
  apply BitVec.eq_of_toNat_eq
  simp only [toNat_append_eq, BitVec.extractLsb'_toNat, Nat.shiftRight_eq_div_pow]
  have := x.isLt
  omega

/-- The capture reads back each field of the slot's record from its place, the repeat from the view's own word. -/
theorem captureRecord_slotWords (run : Bool) (sl : Slot) :
    captureRecord (slotWords run sl) =
      { toFields := { sl.record.toFields with repeatCount := if run then sl.remaining else sl.record.repeatCount }
        kind := kindOfCode (kindCode sl.record.kind)
        timebase := some sl.record.timebase } := by
  simp only [captureRecord, slotWords, Vector.getElem_mk, List.getElem_toArray, List.getElem_cons_zero,
    List.getElem_cons_succ]
  simp (disch := omega) only [BitVec.extractLsb'_append_eq_of_le, BitVec.extractLsb'_append_eq_of_add_le,
    BitVec.getLsbD_append, Nat.reduceLT, Nat.reduceSub, Nat.lt_irrefl, reduceIte, getLsbD_bit,
    latePolicy_of_bit, skipPolicy_of_bit]
  simp [BitVec.extractLsb'_eq_self, tick_of_words, holdEdgeOfCode_holdEdgeCode, timebaseOfNat_timebaseCode]

theorem captureRecord_set_unread (st : Vector Word 10) (w : Word) :
    captureRecord (st.set 8 w) = captureRecord st ∧ captureRecord (st.set 9 w) = captureRecord st := by
  simp [captureRecord]

theorem captureRecord_set_state (st : Vector Word 10) (x : BitVec 3) :
    captureRecord (st.set 1 (x ++ st[1].extractLsb' 0 13)) = captureRecord st := by
  simp (disch := omega) only [captureRecord, Vector.getElem_set, reduceIte, OfNat.one_ne_ofNat, one_ne_zero,
    BitVec.extractLsb'_append_eq_of_add_le, BitVec.getLsbD_append]
  simp

/-- Settles O12, from the record read back in either view and the places that a capture does not read. -/
theorem stagingWordsHoldTheRecord : Obligations.StagingWordsHoldTheRecord := by
  refine ⟨fun sl k hk => ?_, fun st w x => ?_⟩
  · simp only [captureRecord_slotWords, hk, kindOfCode_kindCode]
    exact ⟨rfl, rfl⟩
  · obtain ⟨h8, h9⟩ := captureRecord_set_unread st w
    exact ⟨h8, h9, captureRecord_set_state st x⟩

end Sys2Proof.ActionTable
end

section
/-!
PROOFS. What the host reads (O53): each register's word by the numbers of its fields (R198 to R200), the interrupt line by
the pending sources (R170), and the reads that change nothing (R183).
-/
namespace Sys2Proof.ActionTable

open Sys2Proof.Machine Sys2Proof.Safety

/-! ### View registers -/

@[simp] theorem settledWord_status (s : State) : settledWord 0x01#5 s = statusWord s := rfl

@[simp] theorem settledWord_commandResult (s : State) : settledWord 0x03#5 s = resultWord s.window.result := rfl

@[simp] theorem settledWord_operandHi (s : State) : settledWord 0x14#5 s = 0#8 ++ s.window.operandHi := rfl

@[simp] theorem settledWord_cfgIndex (s : State) : settledWord 0x16#5 s = 0#8 ++ s.window.cfgIndex := rfl

@[simp] theorem settledWord_cfgData (s : State) : settledWord 0x17#5 s = cfgDataWord s := rfl

@[simp] theorem settledWord_pinLevels (s : State) : settledWord 0x19#5 s = lineLevelsWord fun n => pinLevel (s.line n) := rfl

@[simp] theorem settledWord_schedLevels (s : State) : settledWord 0x1A#5 s = lineLevelsWord fun n => (s.line n).scheduled :=
  rfl

@[simp] theorem settledWord_reportCount (s : State) :
    settledWord 0x1C#5 s = reportCountWord (queueRecords s.queue) (queueWords s.queue) := rfl

@[simp] theorem settledWord_notifyPending (s : State) : settledWord 0x1E#5 s = notifyPendingWord s.notify.flags := rfl

/-- The number of the SAFE state field of STATUS, in its place. -/
theorem toNat_safeStateCode (st : SafeState) :
    8192 * (safeStateCode st).toNat =
      match st with
      | .run => 0
      | .active => 8192
      | .cleared => 16384 := by cases st <;> rfl

theorem freeSlots_le (s : State) : freeSlots s ≤ 32 := by
  have := List.length_filter_le (fun i => decide ((s.slot i).state = .free)) allSlots
  simpa [freeSlots, allSlots] using this

/-- STATUS: the engine, the SAFE state, IRQ_N, the report queue and the FREE slots, each in its place. -/
theorem toNat_statusWord (s : State) :
    (statusWord s).toNat =
      (if s.window.engine = none then 0 else 32768)
        + (match s.inputs.safe with
          | .run => 0
          | .active => 8192
          | .cleared => 16384)
        + (if irqAsserted s.notify then 4096 else 0)
        + (if s.queue.records.flatMap unreadWords = [] then 0 else 2048)
        + ((List.finRange 32).filter fun i => decide ((s.slot i).state = .free)).length := by
  have hfree : (BitVec.ofNat 6 (freeSlots s)).toNat = freeSlots s := by
    have := freeSlots_le s
    simp only [BitVec.toNat_ofNat]
    omega
  have hbusy : (bit s.window.engine.isSome).toNat * 32768 = if s.window.engine = none then 0 else 32768 := by
    cases s.window.engine <;> simp [toNat_bit]
  have hirq : (bit (irqAsserted s.notify)).toNat * 4096 = if irqAsserted s.notify then 4096 else 0 := by
    cases irqAsserted s.notify <;> simp [toNat_bit]
  have hqueue : (bit (decide (queueWords s.queue ≠ 0))).toNat * 2048 =
      if s.queue.records.flatMap unreadWords = [] then 0 else 2048 := by
    rw [toNat_bit]
    by_cases h : s.queue.records.flatMap unreadWords = [] <;> simp [h, queueWords_eq, -List.length_flatMap]
  have hslots : freeSlots s = ((List.finRange 32).filter fun i => decide ((s.slot i).state = .free)).length := rfl
  rw [← hslots, ← hqueue, ← hirq, ← hbusy, ← toNat_safeStateCode]
  simp only [statusWord, toNat_append_eq, hfree, BitVec.toNat_ofNat]
  omega

/-- COMMAND_RESULT: status, code and detail (R199). -/
theorem toNat_resultWord (r : CommandResult) :
    (resultWord r).toNat =
      4096 * (match r.status with
        | .noResult => 0
        | .ok => 1
        | .late => 2
        | .badState => 3
        | .badField => 4
        | .badCommand => 5)
        + 256 * r.code.toNat + r.detail.toNat := by
  simp only [resultWord, toNat_append_eq]
  cases r.status <;> simp only [commandStatusCode, BitVec.toNat_ofNat] <;> omega

theorem levelBit_eq (l : Level) : levelBit l = decide (l = .high) := by cases l <;> rfl

/-- The bit of a line in a register with one bit for each line. -/
theorem getLsbD_lineLevelsWord (level : Fin 8 → Level) (k : Fin 16) :
    (lineLevelsWord level).getLsbD k.val = if h : k.val < 8 then decide (level ⟨k.val, h⟩ = .high) else false := by
  simp [lineLevelsWord, levelBit_eq]

/-- The bit of a source in NOTIFY_PENDING is the flag of the source of that number. -/
theorem getLsbD_notifyPendingWord (n : NotifyUnit) (k : Fin 16) :
    (notifyPendingWord n.flags).getLsbD k.val =
      allSources.any fun src => decide (sourceNumber src = k.val) && sourcePending n src := by
  have hsource : ∀ j : Fin 13, ∃ src ∈ allSources, sourceIndex src = j := by decide
  have hbit : (notifyPendingWord n.flags).getLsbD k.val =
      if h : 1 ≤ k.val ∧ k.val ≤ 13 then n.flags[k.val - 1] else false := by
    simp [notifyPendingWord]
  rw [hbit, Bool.eq_iff_iff, List.any_eq_true]
  constructor
  · intro h
    split at h
    case isTrue hk =>
      obtain ⟨src, hmem, hsrc⟩ := hsource ⟨k.val - 1, by omega⟩
      refine ⟨src, hmem, ?_⟩
      have hnum : sourceNumber src = k.val := by simp only [sourceNumber, hsrc]; omega
      simpa [hnum, sourcePending, hsrc] using h
    case isFalse => cases h
  · rintro ⟨src, -, h⟩
    obtain ⟨hnum, hpending⟩ := Bool.and_eq_true_iff.mp h
    have hnum := of_decide_eq_true hnum
    have hlt := (sourceIndex src).isLt
    simp only [sourceNumber] at hnum
    rw [dif_pos (by omega)]
    simpa [← hnum, sourcePending] using hpending

/-- REPORT_COUNT of a sound queue: every record has an unread word, so the records are no more than the words (R159). -/
theorem toNat_reportCountWord {q : ReportQueue} (h : QueueSound q) :
    (reportCountWord (queueRecords q) (queueWords q)).toNat =
      256 * q.records.length + (q.records.flatMap unreadWords).length := by
  obtain ⟨hwords, hunread, -⟩ := h
  have hrecords : queueRecords q = q.records.length := by
    rw [queueRecords, List.filter_eq_self.mpr fun r hr => by simpa using (hunread r hr).1]
  have hle : q.records.length ≤ queueWords q := by
    have hone : ∀ x ∈ q.records.map fun r => (unreadWords r).length, 1 ≤ x := by
      intro x hx
      obtain ⟨r, hr, rfl⟩ := List.mem_map.mp hx
      exact List.length_pos_of_ne_nil (hunread r hr).1
    simpa [queueWords] using List.length_le_sum_of_one_le _ hone
  rw [← queueWords_eq, reportCountWord, hrecords, toNat_append_eq]
  simp only [BitVec.toNat_ofNat]
  omega

/-! ### IRQ_N -/

theorem sourceEligible_iff (n : NotifyUnit) (src : Source) :
    sourceEligible n src = true ↔
      ∃ level, sourcePending n src = true ∧ sourceLevel n src = some level ∧
        match n.current with
        | .openLevel => True
        | .level now => now < level := by
  unfold sourceEligible
  cases hl : sourceLevel n src with
  | none => simp
  | some level => cases hc : n.current <;> simp [handlingRank]

/-- IRQ_N is asserted exactly while some pending, enabled source stands above the current level (R170). -/
theorem irqAsserted_iff (n : NotifyUnit) :
    irqAsserted n = true ↔
      ∃ src level, sourcePending n src = true ∧ sourceLevel n src = some level ∧
        match n.current with
        | .openLevel => True
        | .level now => now < level := by
  simp only [irqAsserted, List.any_eq_true, sourceEligible_iff, mem_allSources, true_and]

/-! ### Configuration items -/

theorem toNat_enablesWord (e : PerTb Bool) :
    (enablesWord e).toNat = (if e.step then 4 else 0) + (if e.edge then 2 else 0) + (if e.clock then 1 else 0) := by
  simp only [enablesWord, toNat_append_eq, toNat_bit, BitVec.toNat_ofNat]
  split <;> split <;> omega

theorem toNat_selectionCode (sel : EdgeSelection) : (selectionCode sel).toNat = selectionNumber sel := by
  simp only [selectionCode, selectionNumber, toNat_append_eq, toNat_bit, BitVec.toNat_ofFin]
  cases sel.kind <;> simp only [edgeKindCode, BitVec.toNat_ofNat] <;> split <;> omega

theorem toNat_selectionsWord (count clear : EdgeSelection) :
    (selectionsWord count clear).toNat = 256 * selectionNumber clear + selectionNumber count := by
  simp only [selectionsWord, toNat_append_eq, toNat_selectionCode, BitVec.toNat_ofNat]
  omega

theorem toNat_lineConfigWord (l : Line) :
    (lineConfigWord l).toNat =
      (if l.pulsePolicy = .refuse then 4 else 0) + (if l.safeLevel = .high then 2 else 0)
        + (if l.polarity = .activeLow then 1 else 0) := by
  simp only [lineConfigWord, toNat_append_eq, toNat_bit, levelBit_eq, BitVec.toNat_ofNat, beq_iff_eq, decide_eq_true_eq]
  split <;> split <;> omega

theorem toNat_setupWord (set : Setup) : (setupWord set).toNat = setupNumber set := by
  have hshift := set.unitShift.isLt
  have hwindow := set.windowExponent.isLt
  simp only [setupWord, setupNumber, toNat_append_eq, toNat_bit, BitVec.toNat_ofFin, BitVec.toNat_ofNat]
  cases set.rounding <;> cases set.mode <;> simp only [roundingCode, modeCode, BitVec.toNat_ofNat] <;> split <;> omega

theorem toNat_channelStatusWord (ch : Channel) :
    (channelStatusWord ch).toNat =
      (if ch.limit then 16 else 0)
        + (match ch.state with
          | .off => 0
          | .waitStart => 1
          | .timing => 2) := by
  simp only [channelStatusWord, toNat_append_eq, toNat_bit, BitVec.toNat_ofNat]
  cases ch.state <;> simp only [channelStateCode, BitVec.toNat_ofNat] <;> split <;> omega

theorem toNat_settingCode (n : NotifySetting) : (settingCode n).toNat = settingNumber n := by
  cases n with
  | disabled => rfl
  | level n =>
    simp only [settingCode, settingNumber, BitVec.toNat_ofNat]
    omega

/-- Item 0x20 is its eight settings, two bits each. -/
theorem levelsLowWord_eq (v : Vector NotifySetting 11) :
    levelsLowWord v = settingCode v[7] ++ settingCode v[6] ++ settingCode v[5] ++ settingCode v[4] ++ settingCode v[3]
      ++ settingCode v[2] ++ settingCode v[1] ++ settingCode v[0] := by
  apply BitVec.eq_of_getLsbD_eq
  intro i hi
  rw [levelsLowWord, BitVec.getLsbD_ofFnLE, dif_pos hi]
  simp only [BitVec.getLsbD_append]
  interval_cases i <;> rfl

theorem levelsHighWord_eq (v : Vector NotifySetting 11) :
    levelsHighWord v = 0#10 ++ settingCode v[10] ++ settingCode v[9] ++ settingCode v[8] := by
  apply BitVec.eq_of_getLsbD_eq
  intro i hi
  rw [levelsHighWord, BitVec.getLsbD_ofFnLE, dif_pos hi]
  simp only [BitVec.getLsbD_append]
  interval_cases i <;> rfl

theorem toNat_levelsLowWord (v : Vector NotifySetting 11) :
    (levelsLowWord v).toNat =
      settingNumber v[0] + 4 * settingNumber v[1] + 16 * settingNumber v[2] + 64 * settingNumber v[3]
        + 256 * settingNumber v[4] + 1024 * settingNumber v[5] + 4096 * settingNumber v[6]
        + 16384 * settingNumber v[7] := by
  rw [levelsLowWord_eq]
  simp only [toNat_append_eq, toNat_settingCode]
  omega

theorem toNat_levelsHighWord (v : Vector NotifySetting 11) :
    (levelsHighWord v).toNat = settingNumber v[8] + 4 * settingNumber v[9] + 16 * settingNumber v[10] := by
  rw [levelsHighWord_eq]
  simp only [toNat_append_eq, toNat_settingCode, BitVec.toNat_ofNat]
  omega

/-- The items of the lines and the channels stand at their indices (R197). -/
theorem cfgItemOfIndex_line : ∀ n : Fin 8, cfgItemOfIndex (BitVec.ofNat 8 (0x08 + n.val)) = some (.line n) := by decide

theorem cfgItemOfIndex_channel : ∀ c : Fin 4,
    cfgItemOfIndex (BitVec.ofNat 8 (0x10 + c.val)) = some (.setup c) ∧
      cfgItemOfIndex (BitVec.ofNat 8 (0x14 + c.val)) = some (.timeoutHi c) ∧
      cfgItemOfIndex (BitVec.ofNat 8 (0x18 + c.val)) = some (.timeoutLo c) ∧
      cfgItemOfIndex (BitVec.ofNat 8 (0x1C + c.val)) = some (.status c) := by decide

/-- The indices 3 to 7 and from 0x23 name no item (R197). -/
theorem cfgItemOfIndex_eq_none {i : Byte} (h : (3 ≤ i.toNat ∧ i.toNat ≤ 7) ∨ 0x23 ≤ i.toNat) : cfgItemOfIndex i = none := by
  unfold cfgItemOfIndex
  simp only [← BitVec.toNat_inj, BitVec.extractLsb'_toNat, BitVec.toNat_ofNat, Nat.shiftRight_eq_div_pow]
  have := i.isLt
  repeat rw [if_neg (by omega)]

/-- What a read of CFG_DATA returns while CFG_INDEX has the number of an item. -/
theorem cfgDataWord_of_item {s : State} {n : Nat} {item : CfgItem} (hitem : cfgItemOfIndex (BitVec.ofNat 8 n) = some item)
    (h : s.window.cfgIndex.toNat = n) : cfgDataWord s = cfgItemWord item s := by
  subst h
  rw [BitVec.ofNat_toNat, BitVec.setWidth_eq] at hitem
  simp only [cfgDataWord, hitem]

/-! ### Reads without a side effect -/

/-- Only the reads of TBn_HI, REPORT_DATA and NOTIFY_CLAIM, and of CFG_DATA at no item, change anything (R183). -/
theorem readEffect_eq_self {a : BitVec 5} {s : State} (ha : a ∉ [0x0E#5, 0x10#5, 0x12#5, 0x1B#5, 0x1D#5])
    (hc : a = 0x17#5 → (cfgItemOfIndex s.window.cfgIndex).isSome = true) : readEffect a s = s := by
  have haddr : ∀ b : BitVec 5, a.toNat = b.toNat → a = b := fun _ => BitVec.eq_of_toNat_eq
  simp only [List.mem_cons, List.not_mem_nil, or_false, not_or] at ha
  obtain ⟨h1, h2, h3, h4, h5⟩ := ha
  unfold readEffect
  split
  case h_1 h => exact absurd (haddr 0x0E#5 h) h1
  case h_2 h => exact absurd (haddr 0x10#5 h) h2
  case h_3 h => exact absurd (haddr 0x12#5 h) h3
  case h_4 h =>
    obtain ⟨item, hitem⟩ := Option.isSome_iff_exists.mp (hc (haddr 0x17#5 h))
    simp only [readCfgData, hitem]
  case h_5 h => exact absurd (haddr 0x1B#5 h) h4
  case h_6 h => exact absurd (haddr 0x1D#5 h) h5
  case h_7 => rfl

theorem settledWord_stage (k : Fin 10) (s : State) :
    settledWord (BitVec.ofNat 5 (4 + k.val)) s = s.window.staging[k] := by
  have haddr : settledWord (BitVec.ofNat 5 (4 + k.val)) s = s.window.staging.getD k.val 0#16 := by
    fin_cases k <;> rfl
  rw [haddr]
  simp [Vector.getD]

theorem toNat_zero_append (x : Byte) : (0#8 ++ x : Word).toNat = x.toNat := by
  rw [toNat_append_eq]
  simp

/-- Settles O53: every register's word is taken of the state with the work of an arrival finished. -/
theorem viewsShowTheState : Obligations.ViewsShowTheState := by
  intro s whole index data settings
  have hword : ∀ a, registerWord a s = settledWord a whole := fun _ => rfl
  have hdriven : ∀ n, drivenLevel s n = pinLevel (whole.line n) := fun _ => rfl
  have hdata : data = cfgDataWord whole := settledWord_cfgData whole
  have hread : ∀ a : BitVec 5, a ∉ [0x0E#5, 0x10#5, 0x12#5, 0x1B#5, 0x1D#5] →
      (a = 0x17#5 → (cfgItemOfIndex s.window.cfgIndex).isSome = true) →
      windowRead a s = { s with readWord := registerWord a s } := fun a ha hc => readEffect_eq_self ha hc
  have hitem : ∀ {n item}, cfgItemOfIndex (BitVec.ofNat 8 n) = some item → index = n → data = cfgItemWord item whole :=
    fun hitem h => hdata.trans (cfgDataWord_of_item hitem h)
  clear_value data whole
  refine ⟨?_, irqAsserted_iff s.notify, ?_, ?_, ?_, ?_, ?_, ?_, ?_, ?_, ?_, ?_, ?_, ?_, ?_, ?_, hread⟩
  · rw [hword, settledWord_status]
    exact toNat_statusWord whole
  · simp only [hword, hdriven, settledWord_pinLevels, settledWord_schedLevels, settledWord_notifyPending]
    exact fun k => ⟨getLsbD_lineLevelsWord _ k, getLsbD_lineLevelsWord _ k, getLsbD_notifyPendingWord whole.notify k⟩
  · simp only [hword, settledWord_commandResult]
    exact ⟨rfl, rfl, toNat_resultWord _⟩
  · simp only [hword]
    exact fun k => settledWord_stage k whole
  · simp only [hword, settledWord_operandHi, settledWord_cfgIndex]
    exact ⟨toNat_zero_append _, rfl, toNat_zero_append _⟩
  · rw [hword, settledWord_reportCount]
    exact toNat_reportCountWord
  · intro h; rw [hitem (item := .enables) rfl h]; exact toNat_enablesWord _
  · intro h; rw [hitem (item := .prescaler) rfl h]; exact toNat_zero_append _
  · intro h; rw [hitem (item := .selections) rfl h]; exact toNat_selectionsWord _ _
  · intro n h; rw [hitem (cfgItemOfIndex_line n) h]; exact toNat_lineConfigWord _
  · intro c
    obtain ⟨hsetup, hhi, hlo, hstatus⟩ := cfgItemOfIndex_channel c
    refine ⟨fun h => ?_, fun h => ?_, fun h => ?_, fun h => ?_⟩
    · rw [hitem hsetup h]; exact toNat_setupWord _
    · rw [hitem hhi h]; exact toNat_zero_append _
    · rw [hitem hlo h]; rfl
    · rw [hitem hstatus h]; exact toNat_channelStatusWord _
  · intro h; rw [hitem (item := .levelsLow) rfl h]; exact toNat_levelsLowWord _
  · intro h; rw [hitem (item := .levelsHigh) rfl h]; exact toNat_levelsHighWord _
  · intro h; rw [hitem (item := .threshold) rfl h]; rfl
  · intro h
    rw [hdata, cfgDataWord, cfgItemOfIndex_eq_none h]

end Sys2Proof.ActionTable
end

section
/-!
PROOFS. The prescaler phase, the channel windows and the intervals keep their bounds under every step (O57), by induction over
the moves of a command (Laws/Moves.lean, Laws/Settle.lean): each elementary change of a channel or of the phase says what it
keeps, and what may stop TB0 discards the intervals in progress.
-/
namespace Sys2Proof.Timebases

open Sys2Proof.Machine Sys2Proof.Safety Sys2Proof.ActionTable

/-! ### Interrupted and reset channels -/

theorem channel_interruptIntervals (s : State) (c : Fin 4) :
    (interruptIntervals s).channel c = interruptChannel (s.channel c) := mapItems_getElem _ _ _ _

theorem interruptChannel_not_timing (ch : Channel) : (interruptChannel ch).state ≠ .timing := by
  unfold interruptChannel
  split
  · simp
  · simp [*]
  · simp [*]

theorem windowSound_interruptChannel {ch : Channel} (h : WindowSound ch) : WindowSound (interruptChannel ch) := by
  unfold interruptChannel
  split <;> exact h

theorem channel_engineReset (s : State) (c : Fin 4) :
    (engineReset s).channel c = engineResetChannel (s.channel c) := mapItems_getElem _ _ _ _

/-- An assertion of SAFE_N leaves the channels alone or interrupts them all (R116). -/
theorem safeAsserted_channel (s : State) :
    (∀ c, (safeAsserted s).channel c = s.channel c) ∨
      ∀ c, (safeAsserted s).channel c = interruptChannel (s.channel c) := by
  unfold safeAsserted
  split
  · exact .inl fun _ => rfl
  · dsimp only
    split
    · exact .inr fun c => channel_interruptIntervals _ c
    · exact .inr fun c => channel_interruptIntervals _ c
    · exact .inl fun _ => rfl

theorem safeReleased_channel (s : State) (c : Fin 4) : (safeReleased s).channel c = s.channel c := by
  unfold safeReleased
  split
  · rfl
  · split <;> rfl

/-! ### The phase -/

theorem change_keeps_phaseSound {s t : State} (h : Change s t) (hs : PhaseSound s.tb) : PhaseSound t.tb := by
  cases h with
  | phase p hp => exact hp
  | _ => exact hs

theorem access_keeps_phaseSound {s t : State} (h : Access s t) (hs : PhaseSound s.tb) : PhaseSound t.tb := by
  cases h with
  | change hc => exact change_keeps_phaseSound hc hs
  | enables w =>
    have hphase : ∀ b : Bool, (if b then 0 else s.tb.phase) < prescalerPeriods s.tb.prescaler := by
      intro b
      cases b
      · exact hs
      · exact prescalerPeriods_pos _
    unfold writeEnables
    dsimp only
    split <;> exact hphase _
  | prescaler w => exact prescalerPeriods_pos _
  | _ => exact hs

theorem move_keeps_phaseSound {s t : State} (h : Move s t) (hs : PhaseSound s.tb) : PhaseSound t.tb := by
  cases h with
  | access ha => exact access_keeps_phaseSound ha hs
  | safeAsserted => obtain ⟨-, ht, -⟩ := safeAsserted_frame s; rw [ht]; exact hs
  | safeReleased => obtain ⟨-, ht, -⟩ := safeReleased_frame s; rw [ht]; exact hs
  | released _ => exact hs
  | engineReset => exact prescalerPeriods_pos _

/-! ### The windows -/

theorem change_keeps_windowSound {s t : State} (h : Change s t) (c : Fin 4) (hs : WindowSound (s.channel c)) :
    WindowSound (t.channel c) := by
  cases h with
  | channel d ch hw ht =>
    rw [State.channel_setChannel]
    split
    case isTrue hd => exact hw (hd ▸ hs)
    case isFalse => exact hs
  | interrupt => rw [channel_interruptIntervals]; exact windowSound_interruptChannel hs
  | _ => exact hs

theorem access_keeps_windowSound {s t : State} (h : Access s t) (c : Fin 4) (hs : WindowSound (s.channel c)) :
    WindowSound (t.channel c) := by
  cases h with
  | change hc => exact change_keeps_windowSound hc c hs
  | enables w =>
    unfold writeEnables
    dsimp only
    split
    · rw [channel_interruptIntervals]; exact windowSound_interruptChannel hs
    · exact hs
  | _ => exact hs

theorem move_keeps_windowSound {s t : State} (h : Move s t) (hs : ∀ c, WindowSound (s.channel c)) (c : Fin 4) :
    WindowSound (t.channel c) := by
  cases h with
  | access ha => exact access_keeps_windowSound ha c (hs c)
  | safeAsserted =>
    obtain h | h := safeAsserted_channel s
    · rw [h]; exact hs c
    · rw [h]; exact windowSound_interruptChannel (hs c)
  | safeReleased => rw [safeReleased_channel]; exact hs c
  | released _ => exact hs c
  | engineReset => rw [channel_engineReset]; exact windowSound_clear _

/-! ### The intervals -/

/-- What stops TB0 no more than before, and begins no interval, begins none while TB0 is stopped. -/
theorem noInterval_of_frame {s t : State} (hs : NoIntervalWhileStopped s) (hc : clockCounts t = false → clockCounts s = false)
    (ht : ∀ c, t.channel c = s.channel c) : NoIntervalWhileStopped t := by
  intro h c
  rw [ht]
  exact hs (hc h) c

theorem change_keeps_noInterval {s t : State} (h : Change s t) (hs : NoIntervalWhileStopped s) :
    NoIntervalWhileStopped t := by
  cases h with
  | channel d ch hw ht =>
    intro hstop c
    have hstop : clockCounts s = false := hstop
    rw [State.channel_setChannel]
    split
    · intro htiming
      obtain h | h := ht htiming
      · exact hs hstop d h
      · rw [hstop] at h; cases h
    · exact hs hstop c
  | interrupt => intro _ c; rw [channel_interruptIntervals]; exact interruptChannel_not_timing _
  | _ => exact hs

theorem writeEnables_keeps_noInterval {s : State} (w : Word) (hs : NoIntervalWhileStopped s) :
    NoIntervalWhileStopped (writeEnables w s) := by
  unfold writeEnables
  dsimp only
  split
  case isTrue => intro _ c; rw [channel_interruptIntervals]; exact interruptChannel_not_timing _
  case isFalse hkept =>
    refine noInterval_of_frame hs (fun hstop => ?_) fun _ => rfl
    simp only [clockCounts, State.setTb, decide_eq_false_iff_not, not_and, Bool.and_eq_true, Bool.not_eq_true',
      Bool.not_eq_false] at hstop hkept ⊢
    exact fun hold => hstop (hkept hold)

theorem access_keeps_noInterval {s t : State} (h : Access s t) (hs : NoIntervalWhileStopped s) :
    NoIntervalWhileStopped t := by
  cases h with
  | change hc => exact change_keeps_noInterval hc hs
  | enables w => exact writeEnables_keeps_noInterval w hs
  | _ => exact hs

theorem safeAsserted_keeps_noInterval {s : State} (hs : NoIntervalWhileStopped s) :
    NoIntervalWhileStopped (safeAsserted s) := by
  unfold safeAsserted
  split
  case isTrue => exact hs
  case isFalse =>
    dsimp only
    split
    case h_1 | h_2 => intro _ c; exact (channel_interruptIntervals _ c).symm ▸ interruptChannel_not_timing _
    case h_3 h => exact noInterval_of_frame hs (fun _ => by simp [clockCounts, h]) fun _ => rfl

theorem safeReleased_keeps_noInterval {s : State} (hs : NoIntervalWhileStopped s) :
    NoIntervalWhileStopped (safeReleased s) := by
  unfold safeReleased
  split
  case isTrue => exact hs
  case isFalse =>
    split
    case h_1 h => exact noInterval_of_frame hs (fun _ => by simp [clockCounts, h]) fun _ => rfl
    case h_2 | h_3 => exact hs

theorem move_keeps_noInterval {s t : State} (h : Move s t) (hs : NoIntervalWhileStopped s) : NoIntervalWhileStopped t := by
  cases h with
  | access ha => exact access_keeps_noInterval ha hs
  | safeAsserted => exact safeAsserted_keeps_noInterval hs
  | safeReleased => exact safeReleased_keeps_noInterval hs
  | released hsafe =>
    refine noInterval_of_frame hs (fun h => ?_) fun _ => rfl
    simpa [clockCounts, releaseHolds, State.setLines, State.setInputs, hsafe] using h
  | engineReset => intro _ c; rw [channel_engineReset]; simp [engineResetChannel, clearWindow]

/-- Settles O57, each invariant by induction over the moves of the command that the step takes. -/
theorem clockAndChannelsStaySound : Obligations.ClockAndChannelsStaySound := by
  have hinitial : ∀ (ins : Vector Level 4) (safeN : Level) (s : State) (c : Fin 4),
      ({ State.powerOn ins safeN with pending := s.pending } : State).channel c = Channel.initial :=
    fun ins safeN s c => by simp [State.channel, State.powerOn]
  refine ⟨fun s t hs h => ?_, fun s t hs h => ?_, fun s t hs h => ?_⟩
  · refine step_keeps (P := fun s => PhaseSound s.tb) (fun _ _ => move_keeps_phaseSound) ?_ ?_ h hs
    · exact fun _ _ _ => prescalerPeriods_pos _
    · exact fun _ _ hs => hs
  · refine step_keeps (P := fun s => ∀ c : Fin 4, WindowSound (s.channel c)) (fun _ _ => move_keeps_windowSound) ?_ ?_ h hs
    · exact fun ins safeN s c => by rw [hinitial]; decide
    · exact fun _ _ hs => hs
  · refine step_keeps (P := NoIntervalWhileStopped) (fun _ _ => move_keeps_noInterval) ?_ ?_ h hs
    · exact fun ins safeN s _ c => by rw [hinitial]; decide
    · exact fun _ _ hs => hs

end Sys2Proof.Timebases
end

section
/-!
PROOFS. The timebase unit at the window: ENGINE_RESET (O5), the snapshot of a read (O21), the writes of its three
configuration items (O29, O30), and the words that a configuration item reads back (O36).
-/
namespace Sys2Proof.Timebases

open Sys2Proof.Machine Sys2Proof.Safety Sys2Proof.ActionTable

/-! ### ENGINE_RESET -/

/-- While the SAFE state follows SAFE_N, ENGINE_RESET leaves it as it is (R114, R123). -/
theorem safeAfterReset_of_sound {inp : InputUnit} (h : inp.safe = .active ↔ inp.safeN = .low) :
    safeAfterReset inp = inp.safe := by
  unfold safeAfterReset
  split
  case isTrue hlow => exact (h.mpr hlow).symm
  case isFalse hhigh =>
    cases hs : inp.safe with
    | active => exact absurd (h.mp hs) hhigh
    | run => rfl
    | cleared => rfl

/-- Settles O5: with no work left and a sound SAFE state the reset is the statement's record, block by block. -/
theorem engineResetCompletionResetsRunState : Obligations.EngineResetCompletionResetsRunState := by
  intro s a hs hsafe he
  have hkept : safeAfterReset s.inputs = s.inputs.safe := safeAfterReset_of_sound hsafe.1
  have hnotices := hs.2
  have hreset : engineReset s = { s with
      tb := engineResetTb s.tb
      sched := Scheduler.initial
      lines := s.lines.map (engineResetLine s.inputs.safe)
      meas := { s.meas with channels := s.meas.channels.map engineResetChannel }
      queue := { s.queue with records := [], lost := 0 }
      notify := notifyEngineReset s.notify } := by
    simp only [engineReset, hkept, mapItems_eq_map, hnotices]
  change taken (workIf (jobCode .engineReset)) s = _
  rw [taken_workIf hs he, ← completeCommand_eq]
  change Host.Outcome.next (completeCommand .ok 0xD#4 a (engineReset s)) = _
  rw [hreset]
  rfl

/-! ### Reads of the timebases -/

/-- The address of TBn_LO follows that of TBn_HI (R183). -/
def tbLoAddress : Timebase → BitVec 5
  | .clock => 0x0F#5
  | .edge => 0x11#5
  | .step => 0x13#5

theorem tbHiAddress_eq (t : Timebase) : tbHiAddress t = BitVec.ofNat 5 (14 + 2 * timebaseNumber t) := by cases t <;> rfl

theorem tbLoAddress_eq (t : Timebase) : tbLoAddress t = BitVec.ofNat 5 (15 + 2 * timebaseNumber t) := by cases t <;> rfl

theorem settledWord_tbHi (t : Timebase) (s : State) : settledWord (tbHiAddress t) s = tbHiWord t s := by cases t <;> rfl

theorem settledWord_tbLo (t : Timebase) (s : State) : settledWord (tbLoAddress t) s = s.tb.snapshots.get t := by
  cases t <;> rfl

theorem readEffect_tbHi (t : Timebase) (s : State) : readEffect (tbHiAddress t) s = takeSnapshot t s := by cases t <;> rfl

theorem readEffect_tbLo (t : Timebase) (s : State) : readEffect (tbLoAddress t) s = s := by cases t <;> rfl

theorem windowWrite_tbHi (t : Timebase) (w : Word) (s : State) : windowWrite (tbHiAddress t) w s = s := by cases t <;> rfl

theorem windowWrite_tbLo (t : Timebase) (w : Word) (s : State) : windowWrite (tbLoAddress t) w s = s := by cases t <;> rfl

/-- Settles O21: each of the four accesses by its address. -/
theorem timebaseReadTakesASnapshot : Obligations.TimebaseReadTakesASnapshot := by
  intro t s hs hi lo
  have hhi : hi = tbHiAddress t := (tbHiAddress_eq t).symm
  have hlo : lo = tbLoAddress t := (tbLoAddress_eq t).symm
  have hwrite : ∀ a w, windowWrite a w s = s → exec (.windowWrite a w) s = .next s := fun a w h =>
    (taken_of_settled hs).trans (congrArg _ h)
  refine ⟨?_, ?_, fun w => ⟨hwrite _ _ ?_, hwrite _ _ ?_⟩⟩
  · change taken (windowRead (tbHiAddress t)) s = _
    rw [taken_of_settled hs, windowRead, readEffect_tbHi, registerWord_of_settled hs, settledWord_tbHi, tbHiWord,
      ← highWord_eq, ← lowWord_eq]
    rfl
  · rw [hlo, windowRead, readEffect_tbLo, registerWord_of_settled hs, settledWord_tbLo]
    rfl
  · rw [hhi, windowWrite_tbHi]
  · rw [hlo, windowWrite_tbLo]

/-! ### Writes of the configuration items -/

/-- A write of CFG_DATA on a settled state is the write of the item that CFG_INDEX names (R197). -/
theorem taken_cfgDataWrite {s : State} {i : Byte} {item : CfgItem} (hs : Settled s) (hi : s.window.cfgIndex = i)
    (hitem : cfgItemOfIndex i = some item) (w : Word) :
    taken (windowWrite 0x17#5 w) s = .next (writeCfgItem item w s) := by
  rw [taken_of_settled hs]
  change Host.Outcome.next (cfgDataWrite w s) = _
  simp only [cfgDataWrite, hi, hitem]

/-- The interrupt of every interval, under a condition that holds of all the channels or of none (R137). -/
theorem map_interrupt_if (p : Prop) [Decidable p] (v : Vector Channel 4) :
    (v.map fun ch => if p ∧ ch.state = .timing then { ch with state := .waitStart } else ch) =
      if p then v.map interruptChannel else v := by
  have hch : ∀ ch : Channel, interruptChannel ch = if ch.state = .timing then { ch with state := .waitStart } else ch := by
    intro ch
    unfold interruptChannel
    split <;> simp [*]
  by_cases hp : p
  · simp only [hp, true_and, if_true, funext hch]
  · simp [hp]

/-- Settles O29: the phase and the intervals by what the write makes of the TB0 enable. -/
theorem timebaseEnablesWriteSetsEnables : Obligations.TimebaseEnablesWriteSetsEnables := by
  intro w s hs hi
  refine (taken_cfgDataWrite hs hi (item := .enables) rfl w).trans (congrArg _ ?_)
  have hmap := map_interrupt_if (w.getLsbD 0 = false ∧ s.tb.enables.clock = true) s.meas.channels
  simp only [and_assoc] at hmap
  rw [hmap]
  simp only [writeCfgItem, writeEnables, enablesOfWord, interruptIntervals, State.setTb, State.setMeas, mapItems_eq_map]
  by_cases hold : s.tb.enables.clock = true
  · by_cases hnew : w.getLsbD 0 = true
    · simp only [hold, hnew]; rfl
    · simp only [hold, Bool.eq_false_of_not_eq_true hnew]; rfl
  · simp only [Bool.eq_false_of_not_eq_true hold]; simp

/-- The kind that a two-bit code stores, as the number it is: code 3 stores both (R198). -/
theorem edgeKindOfCode_eq {b : BitVec 2} {k : Nat} (h : b.toNat = k) :
    edgeKindOfCode b = if k = 0 then .rise else if k = 1 then .fall else .both := by
  subst h
  simp only [edgeKindOfCode, ← BitVec.toNat_inj, BitVec.toNat_ofNat]

/-- A selection is stored from the five bits of its field (R198). -/
theorem selectionOfCode_field (w : Word) (j : Nat) :
    selectionOfCode (w.extractLsb' j 5) =
      { on := w.getLsbD (j + 4)
        kind :=
          let k := w.toNat / 2 ^ (j + 2) % 4
          if k = 0 then .rise else if k = 1 then .fall else .both
        line := Fin.ofNat 4 (w.toNat / 2 ^ j) } := by
  have hkind : ((w.extractLsb' j 5).extractLsb' 2 2).toNat = w.toNat / 2 ^ (j + 2) % 4 := by
    simp only [BitVec.extractLsb'_toNat, Nat.shiftRight_eq_div_pow, Nat.pow_add, ← Nat.div_div_eq_div_mul]
    omega
  have hline : ((w.extractLsb' j 5).extractLsb' 0 2).toFin = Fin.ofNat 4 (w.toNat / 2 ^ j) := by
    apply Fin.ext
    simp only [BitVec.val_toFin, BitVec.extractLsb'_toNat, Nat.shiftRight_eq_div_pow, Fin.val_ofNat]
    omega
  simp only [selectionOfCode, edgeKindOfCode_eq hkind, hline]
  simp

/-- Settles O30, item by item. -/
theorem prescalerAndSelectionsWrites : Obligations.PrescalerAndSelectionsWrites := by
  intro w s hs
  refine ⟨fun hi => taken_cfgDataWrite hs hi (item := .prescaler) rfl w, fun hi => ?_⟩
  refine (taken_cfgDataWrite hs hi (item := .selections) rfl w).trans (congrArg _ ?_)
  simp only [writeCfgItem, writeSelections, selectionOfCode_field, State.setTb]
  simp

/-! ### Items read back -/

theorem enablesOfWord_enablesWord (e : PerTb Bool) : enablesOfWord (enablesWord e) = e := by
  obtain ⟨clock, edge, step⟩ := e
  cases clock <;> cases edge <;> cases step <;> rfl

theorem extractLsb'_zero_append (x : Byte) : (0#8 ++ x : Word).extractLsb' 0 8 = x := BitVec.extractLsb'_append_eq_right

theorem selectionOfCode_selectionCode (sel : EdgeSelection) : selectionOfCode (selectionCode sel) = sel := by
  obtain ⟨line, kind, on⟩ := sel
  revert line
  cases kind <;> cases on <;> decide

/-- The fields of item 0x02 are the two selections. -/
theorem extractLsb'_selectionsWord (count clear : EdgeSelection) :
    (selectionsWord count clear).extractLsb' 8 5 = selectionCode clear ∧
      (selectionsWord count clear).extractLsb' 0 5 = selectionCode count := by
  have hcount := (selectionCode count).isLt
  have hclear := (selectionCode clear).isLt
  constructor <;> apply BitVec.eq_of_toNat_eq <;>
    simp only [selectionsWord, toNat_append_eq, BitVec.extractLsb'_toNat, BitVec.toNat_ofNat,
      Nat.shiftRight_eq_div_pow] <;> omega

/-- The three bits of a line's item (R198). -/
theorem getLsbD_lineConfigWord (l : Line) :
    (lineConfigWord l).getLsbD 2 = decide (l.pulsePolicy = .refuse) ∧
      (lineConfigWord l).getLsbD 1 = decide (l.safeLevel = .high) ∧
      (lineConfigWord l).getLsbD 0 = decide (l.polarity = .activeLow) := by
  simp only [lineConfigWord, bit, levelBit_eq, beq_eq_decide, BitVec.getLsbD_append, BitVec.getLsbD_ofBool]
  simp

theorem writeLineConfig_readBack (n : Fin 8) (s : State) : writeLineConfig n (lineConfigWord (s.line n)) s = s := by
  have hline : ∀ l : Line, { l with
      pulsePolicy := if (lineConfigWord l).getLsbD 2 then .refuse else .retrigger
      safeLevel := if (lineConfigWord l).getLsbD 1 then .high else .low
      polarity := if (lineConfigWord l).getLsbD 0 then .activeLow else .activeHigh } = l := by
    intro l
    obtain ⟨hpolicy, hsafe, hpolarity⟩ := getLsbD_lineConfigWord l
    simp only [hpolicy, hsafe, hpolarity]
    obtain ⟨polarity, safeLevel, pulsePolicy, scheduled, pulse, force, safeHold⟩ := l
    cases polarity <;> cases safeLevel <;> cases pulsePolicy <;> rfl
  simp only [writeLineConfig, hline]
  simp [State.setLine, State.setLines, State.line]

theorem setChannelItems_self (c : Fin 4) (s : State) : s.setChannelItems c (s.channelItems c) = s := by
  simp [State.setChannelItems, State.setMeas, State.channelItems]

theorem roundingOfCode_roundingCode (r : Rounding) : roundingOfCode (roundingCode r) = r := by cases r <;> rfl

theorem modeOfCode_modeCode (m : MeasMode) : modeOfCode (modeCode m) = m := by cases m <;> rfl

theorem exponentOfCode_ofNat : ∀ k : Fin 9, exponentOfCode (BitVec.ofNat 4 k.val) = k := by decide

/-- A channel's set-up comes back from its word, field by field (R198). -/
theorem setupOfWord_setupWord (set : Setup) : setupOfWord (setupWord set) = set := by
  have hshift := set.unitShift.isLt
  have hwindow := set.windowExponent.isLt
  have hround := (roundingCode set.rounding).isLt
  have hmode := (modeCode set.mode).isLt
  have hinput := set.input.isLt
  have hword : (setupWord set).toNat = (bit set.extremes).toNat * 16384 + (roundingCode set.rounding).toNat * 4096
      + set.unitShift.val * 256 + set.windowExponent.val * 16 + (modeCode set.mode).toNat * 4 + set.input.val := by
    simp only [setupWord, toNat_append_eq, BitVec.toNat_ofFin, BitVec.toNat_ofNat]
    omega
  have hbit := (bit set.extremes).isLt
  have hline : (BitVec.ofFin (w := 2) set.input).toNat = set.input.val := rfl
  have hfield : ∀ {n : Nat} (j : Nat) (x : BitVec n), (setupWord set).toNat / 2 ^ j % 2 ^ n = x.toNat →
      (setupWord set).extractLsb' j n = x := fun j x h =>
    BitVec.eq_of_toNat_eq (by rw [BitVec.extractLsb'_toNat, Nat.shiftRight_eq_div_pow, h])
  have hextremes : (setupWord set).getLsbD 14 = set.extremes := by
    have := hfield 14 (bit set.extremes) (by rw [hword]; omega)
    rw [← getLsbD_bit set.extremes, ← this]
    simp
  simp only [setupOfWord, hextremes,
    hfield 12 (roundingCode set.rounding) (by rw [hword]; omega),
    hfield 8 (BitVec.ofNat 4 set.unitShift.val) (by rw [hword, BitVec.toNat_ofNat]; omega),
    hfield 4 (BitVec.ofNat 4 set.windowExponent.val) (by rw [hword, BitVec.toNat_ofNat]; omega),
    hfield 2 (modeCode set.mode) (by rw [hword]; omega),
    hfield 0 (BitVec.ofFin (w := 2) set.input) (by rw [hword, hline]; omega),
    roundingOfCode_roundingCode, exponentOfCode_ofNat, modeOfCode_modeCode]

/-! ### Level settings read back -/

theorem settingOfCode_settingCode (x : NotifySetting) : settingOfCode (settingCode x) = x := by
  cases x with
  | disabled => rfl
  | level n => revert n; decide

theorem extractLsb'_levelsLowWord (v : Vector NotifySetting 11) (k : Fin 8) :
    (levelsLowWord v).extractLsb' (2 * k.val) 2 = settingCode v[k.val] := by
  apply BitVec.eq_of_getLsbD_eq
  intro i hi
  have hk := k.isLt
  rw [BitVec.getLsbD_extractLsb', levelsLowWord, BitVec.getLsbD_ofFnLE, dif_pos (by omega)]
  have hdiv : (2 * k.val + i) / 2 = k.val := by omega
  have hmod : (2 * k.val + i) % 2 = i := by omega
  simp only [hdiv, hmod, hi, decide_true, Bool.true_and]

theorem extractLsb'_levelsHighWord (v : Vector NotifySetting 11) (k : Fin 3) :
    (levelsHighWord v).extractLsb' (2 * k.val) 2 = settingCode v[8 + k.val] := by
  apply BitVec.eq_of_getLsbD_eq
  intro i hi
  have hk := k.isLt
  rw [BitVec.getLsbD_extractLsb', levelsHighWord, BitVec.getLsbD_ofFnLE, dif_pos (by omega), dif_pos (by simp; omega)]
  have hdiv : (2 * k.val + i) / 2 = k.val := by omega
  have hmod : (2 * k.val + i) % 2 = i := by omega
  simp only [hdiv, hmod, hi, decide_true, Bool.true_and]

/-- The programmable sources stand from position 2 of the flags on (R165, R166). -/
theorem exists_source_of_setting : ∀ k : Fin 11, ∃ src ∈ allSources, (sourceIndex src).val = k.val + 2 := by decide

/-- A setting stored again changes nothing, since a disabled source has no flag to clear (R167). -/
theorem notifySetLevel_self {n : NotifyUnit} (h : DisabledFlagsClear n) (k : Fin 11) :
    notifySetLevel k n.settings[k.val] n = n := by
  have hflag : n.settings[k.val] = .disabled → n.flags[k.val + 2] = false := by
    intro hd
    obtain ⟨src, hsrc, hi⟩ := exists_source_of_setting k
    have := h src hsrc (by simp [sourceLevel, hi, hd])
    simpa [sourcePending, hi] using this
  have hkept : (if n.settings[k.val] = .disabled then n.flags.set (k.val + 2) false else n.flags) = n.flags := by
    split
    case isTrue hd => rw [← hflag hd, Vector.set_getElem_self]
    case isFalse => rfl
  simp only [notifySetLevel, hkept, Vector.set_getElem_self]

theorem notifyWriteLow_readBack {n : NotifyUnit} (h : DisabledFlagsClear n) :
    notifyWriteLow (levelsLowWord n.settings) n = n := by
  refine List.foldlRecOn (motive := fun m => m = n) _ _ rfl fun m hm k _ => ?_
  rw [hm, extractLsb'_levelsLowWord, settingOfCode_settingCode]
  exact notifySetLevel_self h ⟨k.val, by omega⟩

theorem notifyWriteHigh_readBack {n : NotifyUnit} (h : DisabledFlagsClear n) :
    notifyWriteHigh (levelsHighWord n.settings) n = n := by
  refine List.foldlRecOn (motive := fun m => m = n) _ _ rfl fun m hm k _ => ?_
  rw [hm, extractLsb'_levelsHighWord, settingOfCode_settingCode]
  exact notifySetLevel_self h ⟨8 + k.val, by omega⟩

theorem thresholdOfWord_ofNat {n : Nat} (h₁ : 1 ≤ n) (h₂ : n ≤ 16) : thresholdOfWord (BitVec.ofNat 16 n) = n := by
  simp only [thresholdOfWord, BitVec.extractLsb'_toNat, BitVec.toNat_ofNat, Config.thresholdMin, Config.thresholdMax]
  omega

/-- Bit 4 of a status item is LIMIT (R198). -/
theorem getLsbD_channelStatusWord (ch : Channel) : (channelStatusWord ch).getLsbD 4 = ch.limit := by
  cases hl : ch.limit <;> cases hs : ch.state <;> simp only [channelStatusWord, hl, hs] <;> rfl

/-- The items whose word, written back, changes nothing. -/
theorem writeCfgItem_readBack {s : State} (h₁ : 1 ≤ s.queue.threshold) (h₂ : s.queue.threshold ≤ 16)
    (hf : DisabledFlagsClear s.notify) {item : CfgItem} (hp : item ≠ .prescaler) (hc : ∀ c, item ≠ .status c) :
    writeCfgItem item (cfgItemWord item s) s = s := by
  cases item with
  | enables => simp [writeCfgItem, cfgItemWord, writeEnables, enablesOfWord_enablesWord, State.setTb]
  | prescaler => exact absurd rfl hp
  | selections =>
    obtain ⟨hclear, hcount⟩ := extractLsb'_selectionsWord s.tb.countSelection s.tb.clearSelection
    simp only [writeCfgItem, cfgItemWord, writeSelections, hclear, hcount, selectionOfCode_selectionCode]
    rfl
  | line n => exact writeLineConfig_readBack n s
  | setup c =>
    simp only [writeCfgItem, cfgItemWord, setupOfWord_setupWord]
    exact setChannelItems_self c s
  | timeoutHi c =>
    simp only [writeCfgItem, cfgItemWord, extractLsb'_zero_append]
    exact setChannelItems_self c s
  | timeoutLo c => exact setChannelItems_self c s
  | status c => exact absurd rfl (hc c)
  | levelsLow => exact congrArg s.setNotify (notifyWriteLow_readBack hf)
  | levelsHigh => exact congrArg s.setNotify (notifyWriteHigh_readBack hf)
  | threshold =>
    simp only [writeCfgItem, cfgItemWord, thresholdOfWord_ofNat h₁ h₂]
    rfl

/-- Settles O36: the two items that change something, and the read of CFG_DATA. -/
theorem configurationItemsReadBack : Obligations.ConfigurationItemsReadBack := by
  intro s h₁ h₂ hf
  refine ⟨fun item hp hc => writeCfgItem_readBack h₁ h₂ hf hp hc, ?_, fun c => ?_, fun item hitem hs => ?_⟩
  · simp only [writeCfgItem, cfgItemWord, writePrescaler, extractLsb'_zero_append]
    rfl
  · simp only [writeCfgItem, cfgItemWord, writeChannelStatus, getLsbD_channelStatusWord, Bool.and_not_self]
  · have hword : registerWord 0x17#5 s = cfgItemWord item s := by
      rw [registerWord_of_settled hs, settledWord_cfgData]
      simp only [cfgDataWord, hitem]
    rw [windowRead, hword]
    exact readEffect_eq_self (by decide) fun _ => by simp [hitem]

end Sys2Proof.Timebases
end

section
/-!
PROOFS. The work of an arrival, its notices and batch records, under the part's operations: most of them neither read it nor
change it, and a fire only adds to what its batch has deferred. So a settled state is settled, and every command finds the
work finished (O2).
-/
namespace Sys2Proof.Timebases

open Sys2Proof.Machine Sys2Proof.Safety Sys2Proof.ActionTable

/-! ### Operations that do not look at the work of an arrival -/

/-- A state with other work of an arrival left. -/
def withWork (n : ArrivalNotices) (bs : List BatchRecord) (s : State) : State := (s.setNotices n).setBatches bs

/-- An operation that neither reads nor changes the notices and the batch records. -/
def IgnoresWork (f : State → State) : Prop := ∀ n bs s, f (withWork n bs s) = withWork n bs (f s)

theorem IgnoresWork.keeps {f : State → State} (h : IgnoresWork f) (s : State) :
    (f s).notices = s.notices ∧ (f s).sched.batches = s.sched.batches := by
  have hs : withWork s.notices s.sched.batches (f s) = f s := (h _ _ s).symm
  rw [← hs]
  exact ⟨rfl, rfl⟩

theorem IgnoresWork.setBatches {f : State → State} (h : IgnoresWork f) (bs : List BatchRecord) (s : State) :
    f (s.setBatches bs) = (f s).setBatches bs := by
  have hs : withWork s.notices bs (f s) = (f s).setBatches bs := by
    rw [← (h.keeps s).1]
    rfl
  rw [← hs]
  exact h s.notices bs s

theorem IgnoresWork.id : IgnoresWork id := fun _ _ _ => rfl

theorem IgnoresWork.comp {f g : State → State} (hg : IgnoresWork g) (hf : IgnoresWork f) :
    IgnoresWork fun s => g (f s) := fun n bs s => (congrArg g (hf n bs s)).trans (hg n bs (f s))

theorem IgnoresWork.foldl {α : Type} {f : α → State → State} (h : ∀ x, IgnoresWork (f x)) (l : List α) :
    IgnoresWork fun s => l.foldl (fun s x => f x s) s := by
  induction l with
  | nil => exact .id
  | cons x l ih => exact ih.comp (h x)

/-- An operation with a condition that is not about the work of an arrival. -/
theorem IgnoresWork.ite {f g : State → State} (p : State → Prop) [DecidablePred p]
    (hp : ∀ n bs s, p (withWork n bs s) ↔ p s) (hf : IgnoresWork f) (hg : IgnoresWork g) :
    IgnoresWork fun s => if p s then f s else g s := by
  intro n bs s
  simp only [hp, hf n bs s, hg n bs s]
  split <;> rfl

theorem raiseSource_ignoresWork (src : Source) : IgnoresWork (raiseSource src) := fun _ _ _ => rfl

theorem handReport_ignoresWork (r : Report) : IgnoresWork (handReport r) := fun n bs s => by
  rw [handReport_eq, handReport_eq]
  rfl

theorem retireSlot_ignoresWork (i : SlotId) : IgnoresWork (retireSlot i) := fun _ _ _ => rfl

theorem skipCheck_ignoresWork (t : Timebase) : IgnoresWork (skipCheck t) := fun n bs s =>
  IgnoresWork.foldl (fun i => (handReport_ignoresWork (.skipped i t)).comp (retireSlot_ignoresWork i))
    ((s.dueList t).filter (skipDrops s t)) n bs
    (s.setDueList t (sortEntries (entryDistance s t) ((s.dueList t).filter fun i => !(skipDrops s t i))))

theorem loadTimebase_ignoresWork (t : Timebase) (v : Tick) : IgnoresWork (loadTimebase t v) := by
  have hskip : IgnoresWork fun s => endPulsesOnLoad t (skipCheck t (s.setTbValue t v)) :=
    IgnoresWork.comp (g := endPulsesOnLoad t) (fun _ _ _ => rfl)
      ((skipCheck_ignoresWork t).comp (f := fun s => s.setTbValue t v) fun _ _ _ => rfl)
  have hinterrupt : IgnoresWork interruptIntervals := fun _ _ _ => rfl
  exact .ite (fun _ => t = .clock) (fun _ _ _ => .rfl) (hinterrupt.comp hskip) hskip

theorem handChannelReport_ignoresWork (c : Fin 4) (r : Report) : IgnoresWork (handChannelReport c r) :=
  (handReport_ignoresWork r).comp (raiseSource_ignoresWork (.mc c))

theorem openChannel_ignoresWork (c : Fin 4) : IgnoresWork (openChannel c) :=
  .ite (fun s => (s.channel c).state = .off) (fun _ _ _ => .rfl) (fun _ _ _ => rfl) .id

theorem closeChannel_ignoresWork (c : Fin 4) : IgnoresWork (closeChannel c) :=
  .ite (fun s => (s.channel c).state = .off) (fun _ _ _ => .rfl) .id fun n bs s =>
    handChannelReport_ignoresWork c (.closed c (BitVec.ofNat 16 (s.channel c).count)) n bs
      (s.setChannel c (clearWindow { s.channel c with state := .off }))

theorem stallCheck_ignoresWork (v : Tick) : IgnoresWork (stallCheck v) :=
  .foldl (fun c => .ite (fun s => intervalStalls v (s.channel c) = true) (fun _ _ _ => .rfl)
    (IgnoresWork.comp (f := fun s => s.setChannel c { s.channel c with state := .waitStart })
      (handChannelReport_ignoresWork c (.stall c)) fun _ _ _ => rfl) .id) allChannels

/-! ### The rest of a fire -/

theorem slot_fireReport (i j : SlotId) (v : Tick) (late : Bool) (a : Answer) (s : State) :
    (fireReport i v late a s).slot j = s.slot j :=
  congrArg (fun x : Scheduler × PerTb Tick => x.1.slots[j]) (schedView_fireReport v late a)

theorem slot_fireNotify (i j : SlotId) (s : State) : (fireNotify i s).slot j = s.slot j :=
  congrArg (fun x : Scheduler × PerTb Tick => x.1.slots[j]) schedView_fireNotify

/-- The last three steps of a fire are the statements' `entryFired`. -/
theorem entryFired_eq (i : SlotId) (v : Tick) (late : Bool) (a : Answer) (s : State) :
    fireSettle i v (fireNotify i (fireReport i v late a s)) = entryFired i v late a s := by
  have hretires : ∀ sl : Slot, (fireRetires sl = true) = (sl.record.period = 0#24 ∨ sl.remaining = 1#16) := by
    intro sl
    by_cases hp : sl.record.period = 0#24 <;> simp [fireRetires, isLastFire, hp]
  have hanswer : ∀ b : Answer, (a == b) = decide (a = b) := fun b => beq_eq_decide a b
  simp only [fireSettle, hretires, slot_fireNotify, slot_fireReport]
  simp only [fireNotify, slot_fireReport]
  simp only [fireReport, hanswer]
  rfl

theorem entryFired_ignoresWork (i : SlotId) (v : Tick) (late : Bool) (a : Answer) : IgnoresWork (entryFired i v late a) := by
  have hreport : IgnoresWork (fireReport i v late a) :=
    .ite (fun s => (s.slot i).record.report = true) (fun _ _ _ => .rfl)
      (fun n bs s => handReport_ignoresWork _ n bs s) .id
  have hnotify : IgnoresWork (fireNotify i) :=
    .ite (fun s => (s.slot i).record.notify = true) (fun _ _ _ => .rfl) (raiseSource_ignoresWork .entry) .id
  have hsettle : IgnoresWork (fireSettle i v) :=
    .ite (fun s => fireRetires (s.slot i) = true) (fun _ _ _ => .rfl) (fun _ _ _ => rfl) fun _ _ _ => rfl
  have h := hsettle.comp (hnotify.comp hreport)
  simpa only [entryFired_eq] using h

/-! ### What a fire leaves of the work -/

/-- From `s` to `t` nothing has become of the work of an arrival but what was added to the deferred list of the innermost
batch. -/
structure Collects (s t : State) : Prop where
  notices : t.notices = s.notices
  batches : ∃ new, t.sched.batches = s.sched.batches.modifyHead fun b => { b with deferred := b.deferred ++ new }

theorem Collects.of_eq {s t : State} (hn : t.notices = s.notices) (hb : t.sched.batches = s.sched.batches) :
    Collects s t := by
  refine ⟨hn, [], ?_⟩
  rw [hb]
  cases s.sched.batches <;> simp

theorem Collects.refl (s : State) : Collects s s := .of_eq rfl rfl

theorem Collects.trans {s t u : State} (h : Collects s t) (k : Collects t u) : Collects s u := by
  obtain ⟨hn, new, hb⟩ := h
  obtain ⟨kn, new', kb⟩ := k
  refine ⟨kn.trans hn, new ++ new', ?_⟩
  rw [kb, hb]
  cases s.sched.batches <;> simp

theorem IgnoresWork.collects {f : State → State} (h : IgnoresWork f) (s : State) : Collects s (f s) :=
  .of_eq (h.keeps s).1 (h.keeps s).2

theorem Collects.foldl {α : Type} {f : State → α → State} (h : ∀ s x, Collects s (f s x)) (l : List α) (s : State) :
    Collects s (l.foldl f s) := by
  induction l generalizing s with
  | nil => exact .refl s
  | cons x l ih => exact (h s x).trans (ih _)

theorem updateBatch_eq (f : BatchRecord → BatchRecord) (s : State) :
    updateBatch f s = s.setBatches (s.sched.batches.modifyHead f) := by
  unfold updateBatch
  split
  case h_1 h => rw [h, List.modifyHead_nil, ← h]; rfl
  case h_2 h => rw [h, List.modifyHead_cons]

theorem addDeferred_collects (op : Deferred) (s : State) : Collects s (addDeferred op s) := by
  rw [addDeferred, updateBatch_eq]
  exact ⟨rfl, [op], rfl⟩

theorem cancelMembers_collects (g : BitVec 3) (s : State) : Collects s (cancelMembers g s) :=
  .foldl (fun s i => by split <;> exact .of_eq rfl rfl) allSlots s

theorem fireLoad_collects (r : Record) (s : State) : Collects s (fireLoad r s) := by
  unfold fireLoad
  split
  · exact .refl s
  · split
    · exact addDeferred_collects _ s
    · exact (loadTimebase_ignoresWork _ _).collects s

/-- An action defers operations and changes nothing else of the work, when the pass of an ARM_GROUP action does not. -/
theorem fireAction_collects {pass : BitVec 3 → State → State} {s : State} (hpass : ∀ g, Collects s (pass g s)) (r : Record)
    (v : Tick) : Collects s (fireAction pass r v s).1 := by
  unfold fireAction
  split
  case h_1 | h_2 | h_3 | h_4 | h_5 | h_10 => exact .of_eq rfl rfl
  case h_6 => exact fireLoad_collects r s
  case h_7 =>
    unfold fireStep
    split
    · exact .refl s
    · exact addDeferred_collects _ s
  case h_8 => exact hpass _
  case h_9 => exact cancelMembers_collects _ s
  case h_11 => exact (openChannel_ignoresWork _).collects s
  case h_12 => exact (closeChannel_ignoresWork _).collects s

/-- A slot that stands in no firing chain of the innermost batch (R51). -/
def OutOfChain (i : SlotId) (s : State) : Prop := ∀ b ∈ s.sched.batches.head?, i ∉ b.chain

theorem outOfChain_of_not_beingFired {i : SlotId} {s : State} (h : beingFired s i = false) : OutOfChain i s := by
  intro b hb hi
  have hb : b ∈ s.sched.batches := List.mem_of_mem_head? hb
  have : beingFired s i = true := List.any_eq_true.mpr ⟨b, hb, by simp [hi]⟩
  simp [this] at h

theorem armStep_collects (origin : ArmOrigin) {fireNow : SlotId → Tick → State → State} {i : SlotId} {s : State}
    (hfire : ∀ v u, u.sched.batches = s.sched.batches → Collects u (fireNow i v u)) :
    Collects s (armStep origin fireNow i s) := by
  unfold armStep
  dsimp only
  split
  case h_1 | h_2 | h_3 => exact .of_eq rfl rfl
  case h_4 => exact (handReport_ignoresWork _).collects s
  case h_5 =>
    have harmed : Collects s (s.setSlot i (armedSlot .armed (s.slot i).record.due (s.slot i))) := .of_eq rfl rfl
    exact harmed.trans (hfire _ _ rfl)

/-- The pass of an ARM_GROUP action takes no slot that is being fired, so no fire at once ends another fire (R51, R55). -/
theorem groupArmPass_collects {fireNow : SlotId → Tick → State → State}
    (hfire : ∀ i v u, OutOfChain i u → Collects u (fireNow i v u)) (g : BitVec 3) (s : State) :
    Collects s (groupArmPass fireNow g s) := by
  refine .foldl (fun s i => ?_) allSlots s
  split
  case isTrue ht =>
    have hi : OutOfChain i s := outOfChain_of_not_beingFired (by simp [armTakes] at ht; exact ht.2)
    exact armStep_collects .action fun v u hu => hfire i v u (by rw [OutOfChain, hu]; exact hi)
  case isFalse => exact .refl s

/-- One fire, in the words of the statements. -/
theorem fire_succ (n : Nat) (i : SlotId) (v : Tick) (late : Bool) (s : State) :
    fire (n + 1) i v late s =
      let acted := fireAction (groupArmPass fun j w u => fire n j w true u) (s.slot i).record v (enterChain i s)
      leaveChain i (entryFired i v late acted.2 acted.1) := by
  simp only [← entryFired_eq]
  rfl

/-- Between the entry into the chain and the leave, a fire only collects deferred operations. -/
theorem firing_collects {n : Nat} (h : ∀ i v u, OutOfChain i u → Collects u (fire n i v true u)) (i : SlotId) (v : Tick)
    (late : Bool) (r : Record) (s : State) :
    let acted := fireAction (groupArmPass fun j w u => fire n j w true u) r v s
    Collects s (entryFired i v late acted.2 acted.1) :=
  (fireAction_collects (fun g => groupArmPass_collects h g s) r v).trans ((entryFired_ignoresWork i v late _).collects _)

theorem filter_append_self {i : SlotId} {l : List SlotId} (hi : i ∉ l) : (l ++ [i]).filter (· ≠ i) = l := by
  rw [List.filter_append, List.filter_eq_self.mpr fun j hj => by simpa using fun e : j = i => hi (e ▸ hj)]
  simp

/-- A fire gives the chain back as it was, and leaves in its batch what it has deferred (R68, R86). -/
theorem fire_collects (n : Nat) (i : SlotId) (v : Tick) (late : Bool) (s : State) (hi : OutOfChain i s) :
    Collects s (fire n i v late s) := by
  induction n generalizing i v late s with
  | zero => exact .refl s
  | succ n ih =>
    obtain ⟨hn, new, hb⟩ := firing_collects (fun j w u hj => ih j w true u hj) i v late (s.slot i).record (enterChain i s)
    rw [fire_succ]
    refine ⟨?_, new, ?_⟩
    · rw [leaveChain, updateBatch_eq]
      exact hn.trans (by rw [enterChain, updateBatch_eq]; rfl)
    · rw [leaveChain, updateBatch_eq, State.batches_setBatches, hb, enterChain, updateBatch_eq, State.batches_setBatches]
      cases hbs : s.sched.batches with
      | nil => rfl
      | cons b rest => simp only [List.modifyHead_cons, filter_append_self (hi b (by simp [hbs]))]

/-! ### The notices under the work of a batch -/

theorem fire_notices (n : Nat) (i : SlotId) (v : Tick) (late : Bool) (s : State) :
    (fire n i v late s).notices = s.notices := by
  cases n with
  | zero => rfl
  | succ n =>
    have h := (firing_collects (fun j w u => fire_collects n j w true u) i v late (s.slot i).record (enterChain i s)).notices
    rw [fire_succ, leaveChain, updateBatch_eq]
    exact h.trans (by rw [enterChain, updateBatch_eq]; rfl)

theorem updateBatch_notices (f : BatchRecord → BatchRecord) (s : State) : (updateBatch f s).notices = s.notices := by
  rw [updateBatch_eq]
  rfl

theorem fireWaiting_notices (v : Tick) (l : List SlotId) (s : State) : (fireWaiting v l s).notices = s.notices := by
  induction l generalizing s with
  | nil => rfl
  | cons i l ih => exact (ih _).trans ((fire_notices ..).trans (updateBatch_notices _ s))

theorem applyDeferred_notices {request : State → State} (hr : ∀ s, (request s).notices = s.notices) (t : Timebase)
    (l : List Deferred) (s : State) : (applyDeferred request t l s).notices = s.notices := by
  induction l generalizing s with
  | nil => rfl
  | cons op l ih =>
    cases op with
    | step => exact (ih _).trans ((hr _).trans (updateBatch_notices _ s))
    | load v => exact (ih _).trans (((loadTimebase_ignoresWork t v).keeps _).1.trans (updateBatch_notices _ s))

theorem finishBatch_notices {request : State → State} (hr : ∀ s, (request s).notices = s.notices) (s : State) :
    (finishBatch request s).notices = s.notices := by
  unfold finishBatch applyCollected
  split
  case h_1 => rfl
  case h_2 b rest _ =>
    refine Eq.trans ?_ (fireWaiting_notices b.value b.waiting s)
    split
    · rfl
    · exact applyDeferred_notices hr _ _ _

theorem beginArrival_notices (t : Timebase) (s : State) : (beginArrival t s).notices = s.notices := by
  unfold beginArrival raiseWrap takeBatch
  dsimp only
  split <;> rfl

theorem stepRequest_notices (s : State) : (stepRequest s).notices = s.notices := by
  unfold stepRequest wholeArrival
  split
  · exact (finishBatch_notices (fun _ => rfl) _).trans (beginArrival_notices .step s)
  · rfl

theorem finishBatches_notices (s : State) : (finishBatches s).notices = s.notices :=
  List.foldlRecOn (motive := fun u => u.notices = s.notices) _ _ rfl fun u hu _ _ =>
    (finishBatch_notices stepRequest_notices u).trans hu

/-! ### A settled state -/

theorem takeStallNotice_work (s : State) :
    (takeStallNotice s).notices = ⟨s.notices.lines, none⟩ ∧ (takeStallNotice s).sched.batches = s.sched.batches := by
  unfold takeStallNotice
  split
  case h_1 h => exact ⟨by rw [← h], rfl⟩
  case h_2 v h => exact (stallCheck_ignoresWork v).keeps _

/-- What an arrival has left is finished by `settle`. -/
theorem settled_settle (s : State) : Settled (settle s) := by
  obtain ⟨hn, hb⟩ := takeStallNotice_work (takeBatchNotice s)
  refine ⟨hb.trans (finishBatches_batches _), hn.trans ?_⟩
  rw [takeBatchNotice, finishBatches_notices, takeLineNotice_lines]

/-- A command that finds the work of an arrival finished acts as on the settled state. -/
theorem taken_settle (work : State → State) (s : State) : taken work s = taken work (settle s) := by
  rw [taken_of_settled (settled_settle s)]
  rfl

/-- BATCH_FIRE after PULSE_END is the batch's part of the work, whether or not a batch record is held. -/
theorem exec_batchFire_takeLineNotice (s : State) : exec .batchFire (takeLineNotice s) = .next (takeBatchNotice s) := by
  change Host.Outcome.next (if (takeLineNotice s).sched.batches.isEmpty then takeLineNotice s
    else takeBatchNotice (takeLineNotice s)) = _
  rw [takeBatchNotice, takeBatchNotice, takeLineNotice_twice]
  split
  case isTrue h => rw [finishBatches_none (List.isEmpty_iff.mp h)]
  case isFalse => rfl

/-- Settles O2: each of the other commands is taken on the settled state. -/
theorem arrivalWorkIsFinishedFirst : Obligations.ArrivalWorkIsFinishedFirst := by
  intro c s hpower hfire hpulse hstall
  refine ⟨?_, settled_settle s, takeLineNotice s, takeBatchNotice s, rfl, exec_batchFire_takeLineNotice s, rfl⟩
  cases c
  case powerOnReset ins safeN => exact absurd rfl (hpower ins safeN)
  case batchFire => exact absurd rfl hfire
  case pulseEnd => exact absurd rfl hpulse
  case stall => exact absurd rfl hstall
  all_goals exact taken_settle _ s

end Sys2Proof.Timebases
end

section
/-!
PROOFS. Distances and the places of a due list (O47), and the loads of a timebase with their notices (O18): the skip check
retires what it drops in list order, and sorts the rest stably.
-/
namespace Sys2Proof.Timebases

open Sys2Proof.Machine Sys2Proof.Safety Sys2Proof.ActionTable

/-! ### Distance -/

theorem distance_eq_emod (d v : Tick) : (distance d v : ℤ) = ((d.toNat : ℤ) - v.toNat - 1) % 16777216 + 1 := by
  have hd := d.isLt
  have hv := v.isLt
  simp only [distance, BitVec.toNat_sub, BitVec.toNat_ofNat]
  omega

theorem distance_range (d v : Tick) : 1 ≤ distance d v ∧ distance d v ≤ 16777216 := by
  have h := (d - v - 1#24).isLt
  unfold distance
  omega

theorem distance_eq_one_iff (d v : Tick) : distance d v = 1 ↔ d = v + 1#24 := by
  unfold distance
  constructor
  · intro h
    have h0 : d - v - 1#24 = 0#24 := BitVec.eq_of_toNat_eq (by simpa using h)
    bv_omega
  · rintro rfl
    bv_omega

theorem distance_eq_full_iff (d v : Tick) : distance d v = 16777216 ↔ d = v := by
  unfold distance
  constructor
  · intro h
    bv_omega
  · rintro rfl
    bv_omega

/-! ### The place of an entry -/

/-- In an ordered list an entry takes the place that R43 gives it. -/
theorem insertEntry_eq_placedAt (dist : SlotId → Nat) (i : SlotId) {l : List SlotId}
    (h : l.Pairwise fun j k => dist j ≤ dist k) : insertEntry dist i l = placedAt dist (dist i) i l := by
  induction l with
  | nil => rfl
  | cons j rest ih =>
    obtain ⟨hj, hrest⟩ := List.pairwise_cons.mp h
    unfold insertEntry
    split
    case isTrue hle =>
      rw [ih hrest]
      simp [placedAt, hle]
    case isFalse hlt =>
      have hall : ∀ k ∈ j :: rest, dist i < dist k := by
        intro k hk
        obtain rfl | hk := List.mem_cons.mp hk
        · omega
        · have := hj k hk
          omega
      have hlow : (j :: rest).filter (fun k => decide (dist k ≤ dist i)) = [] :=
        List.filter_eq_nil_iff.mpr fun k hk => by simpa using hall k hk
      have hhigh : (j :: rest).filter (fun k => decide (dist i < dist k)) = j :: rest :=
        List.filter_eq_self.mpr fun k hk => by simpa using hall k hk
      rw [placedAt, hlow, hhigh, List.nil_append]

/-- Settles O47, fact by fact. -/
theorem distanceOrdersTheLists : Obligations.DistanceOrdersTheLists := by
  refine ⟨fun d v => ?_, fun dist i l h => ?_⟩
  · obtain ⟨hlow, hhigh⟩ := distance_range d v
    refine ⟨hlow, hhigh, distance_eq_emod d v, distance_eq_one_iff d v, distance_eq_full_iff d v, fun hne => ?_⟩
    exact distance_advance fun h => hne ((distance_eq_one_iff d v).mpr h)
  · exact ⟨insertEntry_eq_placedAt dist i h, insertEntry_ordered dist i h, insertEntry_perm dist i l⟩

/-! ### The stable sort -/

/-- An entry joins behind the entries of its own distance (R43). -/
theorem filter_insertEntry (dist : SlotId → Nat) (i : SlotId) {l : List SlotId}
    (h : l.Pairwise fun j k => dist j ≤ dist k) (d : Nat) :
    (insertEntry dist i l).filter (fun j => decide (dist j = d)) =
      l.filter (fun j => decide (dist j = d)) ++ [i].filter (fun j => decide (dist j = d)) := by
  induction l with
  | nil => rfl
  | cons j rest ih =>
    obtain ⟨hj, hrest⟩ := List.pairwise_cons.mp h
    unfold insertEntry
    split
    case isTrue => simp only [List.filter_cons (x := j), ih hrest]; split <;> simp
    case isFalse hlt =>
      by_cases hi : dist i = d
      · have hnone : (j :: rest).filter (fun k => decide (dist k = d)) = [] := by
          refine List.filter_eq_nil_iff.mpr fun k hk => ?_
          obtain rfl | hk := List.mem_cons.mp hk
          · simp; omega
          · have := hj k hk
            simp; omega
        rw [List.filter_cons_of_pos (by simpa using hi), hnone]
        simp [hi]
      · rw [List.filter_cons_of_neg (by simpa using hi)]
        simp [hi]

/-- The sort keeps the entries of one distance in the order they had (R46). -/
theorem filter_sortEntries (dist : SlotId → Nat) (l : List SlotId) (d : Nat) :
    (sortEntries dist l).filter (fun j => decide (dist j = d)) = l.filter fun j => decide (dist j = d) := by
  suffices h : ∀ acc : List SlotId, (acc.Pairwise fun j k => dist j ≤ dist k) →
      (l.foldl (fun acc i => insertEntry dist i acc) acc).filter (fun j => decide (dist j = d)) =
        acc.filter (fun j => decide (dist j = d)) ++ l.filter fun j => decide (dist j = d) from by
    simpa [sortEntries] using h [] .nil
  induction l with
  | nil => simp
  | cons i rest ih =>
    intro acc hacc
    rw [List.foldl_cons, ih _ (insertEntry_ordered dist i hacc), filter_insertEntry dist i hacc, List.append_assoc,
      ← List.filter_append, List.singleton_append]

/-! ### The skip check -/

theorem retiredSlot_retiredSlot (sl : Slot) : retiredSlot (retiredSlot sl) = retiredSlot sl := by
  unfold retiredSlot
  by_cases hk : sl.record.keep = true
  · simp [hk]
  · simp [hk, Slot.empty, Record.zero]

/-- The dropped entries retire with their records handed in order; nothing else changes (R62, R63). -/
theorem skipEntries_eq (t : Timebase) (l : List SlotId) (s : State) :
    ∃ slots : Vector Slot 32,
      l.foldl (fun s i => skipEntry t i s) s =
        { s with
          sched := { s.sched with slots := slots }
          queue := (l.foldl (fun qn i => handed (.skipped i t) qn) (s.queue, s.notify)).1
          notify := (l.foldl (fun qn i => handed (.skipped i t) qn) (s.queue, s.notify)).2 } ∧
      ∀ i : SlotId, slots[i] = if i ∈ l then retiredSlot (s.slot i) else s.slot i := by
  induction l generalizing s with
  | nil => exact ⟨s.sched.slots, rfl, fun i => by simp [State.slot]⟩
  | cons i rest ih =>
    have hskip : skipEntry t i s = ((s.setSlot i (retiredSlot (s.slot i))).setQueue
        (handed (.skipped i t) (s.queue, s.notify)).1).setNotify (handed (.skipped i t) (s.queue, s.notify)).2 :=
      handReport_eq _ _
    obtain ⟨slots, heq, hslots⟩ := ih (skipEntry t i s)
    refine ⟨slots, ?_, fun j => ?_⟩
    · rw [List.foldl_cons, heq, hskip]
      rfl
    · have hj : (skipEntry t i s).slot j = if i = j then retiredSlot (s.slot j) else s.slot j := by
        rw [hskip]
        refine (State.slot_setSlot s i j _).trans ?_
        split <;> simp [*]
      rw [hslots, hj]
      by_cases hij : i = j
      · subst hij
        simp [retiredSlot_retiredSlot]
      · have : j ∈ i :: rest ↔ j ∈ rest := by simp [Ne.symm hij]
        simp only [if_neg hij, this]

/-! ### Loads -/

/-- What a load makes of one line is what the statement says (R101). -/
theorem endPulseOnLoad_eq (t : Timebase) (l : Line) :
    (if pulseTimedOn t l then endPulse l else l) =
      match l.pulse with
      | none => l
      | some p => if p.timebase = t then { l with scheduled := inactiveLevel l, pulse := none } else l := by
  unfold pulseTimedOn
  cases l.pulse with
  | none => rfl
  | some p => simp only [beq_iff_eq]; rfl

/-- A load is the skip check, the pulse ends and, for TB0, the interrupt of every interval, each of the state that the new
value gives. -/
theorem loadTimebase_loaded (t : Timebase) (v : Tick) (s : State) : Loaded t v s (loadTimebase t v s) := by
  unfold Loaded
  intro dist drops skipped
  set s₁ := s.setTbValue t v with hs₁
  have hdist : entryDistance s₁ t = dist := by
    funext i
    simp [entryDistance, hs₁, dist, State.slot]
  have hdrops : skipDrops s₁ t = drops := by
    funext i
    simp only [skipDrops, hdist]
    rfl
  set kept := (s.dueList t).filter fun i => !(drops i) with hkept
  set s₂ := s₁.setDueList t (sortEntries dist kept) with hs₂
  have hcheck : skipCheck t s₁ = ((s.dueList t).filter drops).foldl (fun s i => skipEntry t i s) s₂ := by
    unfold skipCheck
    simp only [hdist, hdrops]
    rfl
  obtain ⟨slots, heq, hslots⟩ := skipEntries_eq t ((s.dueList t).filter drops) s₂
  refine ⟨{ s₂.sched with slots := slots }, ?_, rfl, fun i => ?_, fun u hu => ?_, ?_, ?_, fun d => ?_⟩
  · have hload : loadTimebase t v s =
        if t = .clock then interruptIntervals (endPulsesOnLoad t (skipCheck t s₁)) else endPulsesOnLoad t (skipCheck t s₁) :=
      rfl
    rw [hload, hcheck, heq, map_interrupt_if (t = .clock)]
    simp only [endPulsesOnLoad, interruptIntervals, mapItems_eq_map, endPulseOnLoad_eq]
    split <;> rfl
  · refine (hslots i).trans ?_
    simp only [List.mem_filter, retiredSlot]
    rfl
  · exact State.dueList_setDueList_other _ _ _ _ hu
  · exact (congrArg (List.Perm · kept) (State.dueList_setDueList ..)).mpr (sortEntries_perm dist kept)
  · have := sortEntries_ordered dist kept
    rwa [← State.dueList_setDueList s₁ t (sortEntries dist kept)] at this
  · have := filter_sortEntries dist kept d
    rw [← State.dueList_setDueList s₁ t (sortEntries dist kept)] at this
    refine this.trans ?_
    rw [hkept, List.filter_filter]
    exact List.filter_congr fun i _ => Bool.and_comm _ _

theorem timebaseOfNat_timebaseNumber (t : Timebase) : timebaseOfNat (timebaseNumber t) = some t := by cases t <;> rfl

/-- Settles O18: the load that the completion makes is the load of the statement. -/
theorem loadTbCompletionLoadsWithItsNotices : Obligations.LoadTbCompletionLoadsWithItsNotices := by
  refine ⟨loadTimebase_loaded, fun s a t hs he ha => ?_⟩
  have hwork : commandWork ⟨.loadTb, a⟩ s =
      finishCommand ⟨.loadTb, a⟩ .ok a (loadTimebase t (operandValue s) s) := by
    simp only [commandWork, loadTbWork, ha, timebaseOfNat_timebaseNumber]
  exact (taken_workIf hs he).trans (congrArg _ (hwork.trans (finishCommand_eq ..)))

end Sys2Proof.Timebases
end

section
/-!
PROOFS. Arrivals: the advance of TB0 by the clock (O42), and the dispatch of an edge, which loads or counts TB1 (O38). An
arrival with nothing due and no pulse to end is the advance of its value.
-/
namespace Sys2Proof.Timebases

open Sys2Proof.Machine Sys2Proof.Safety Sys2Proof.ActionTable

/-! ### One arrival -/

/-- A cause of a programmable source, by the position of its setting (R166, R167). -/
theorem caused_eq {src : Source} (n : NotifyUnit) (k : Nat) (hk : k < 11) (h : (sourceIndex src).val = k + 2) :
    caused src n = if n.settings[k] = .disabled then n else { n with flags := n.flags.set (k + 2) true } := by
  cases hs : n.settings[k] with
  | disabled => simp [caused, sourceLevel, h, hs]
  | level l => simp [caused, sourceLevel, h, hs]

/-- The same cause, raised under a condition. -/
theorem caused_if_eq {src : Source} (n : NotifyUnit) (k : Nat) (hk : k < 11) (h : (sourceIndex src).val = k + 2) (p : Prop)
    [Decidable p] :
    (if p then caused src n else n) =
      if p ∧ n.settings[k] ≠ .disabled then { n with flags := n.flags.set (k + 2) true } else n := by
  rw [caused_eq n k hk h]
  by_cases hp : p <;> by_cases hd : n.settings[k] = .disabled <;> simp [hp, hd]

/-- The value advances, the wrap is noticed and the batch is taken, before the line unit has its notice (R26, R67). -/
theorem beginArrival_eq (t : Timebase) (s : State) : beginArrival t s = { arrived t s with lines := s.lines } := by
  unfold beginArrival raiseWrap arrived
  by_cases h : s.tbValue t + 1#24 = 0#24
  · simp only [if_pos h, raiseSource_notify, notifyCause_eq]
    rfl
  · simp only [if_neg h]
    rfl

/-- An arrival whose pulses have ended is the statements' `arrived`. -/
theorem endPulsesAt_beginArrival (t : Timebase) (s : State) :
    endPulsesAt t (s.tbValue t + 1#24) (beginArrival t s) = arrived t s := by
  have hline : (fun l => if pulseEndsAt t (s.tbValue t + 1#24) l then endPulse l else l) = fun l : Line =>
      if l.pulse = some ⟨t, s.tbValue t + 1#24⟩ then { l with scheduled := inactiveLevel l, pulse := none } else l := by
    funext l
    simp only [pulseEndsAt, decide_eq_true_eq]
    rfl
  rw [beginArrival_eq, endPulsesAt, hline, mapItems_eq_map]
  rfl

theorem wholeArrival_eq (request : State → State) (t : Timebase) (s : State) :
    wholeArrival request t s = finishBatch request (arrived t s) := by
  rw [wholeArrival, endPulsesAt_beginArrival]

/-- A batch with nothing left to fire and nothing deferred gives up its record (R87). -/
theorem finishBatch_done {request : State → State} {s : State} {t : Timebase} {v : Tick} {outer : List BatchRecord}
    (h : s.sched.batches = ⟨t, v, [], [], []⟩ :: outer) : finishBatch request s = s.setBatches outer := by
  simp only [finishBatch, h, fireWaiting, applyCollected, currentBatch, List.head?_cons, applyDeferred]

/-! ### Timebases on which nothing is due -/

/-- No pulse in flight is timed on a timebase. -/
def NoPulseOn (t : Timebase) (s : State) : Prop := ∀ n : Fin 8, ∀ p, (s.line n).pulse = some p → p.timebase ≠ t

theorem mapLines_eq_self {f : Line → Line} {s : State} (h : ∀ n : Fin 8, f (s.line n) = s.line n) :
    s.setLines (mapItems f s.lines) = s := by
  have hlines : mapItems f s.lines = s.lines := by
    ext1 n hn
    rw [mapItems_getElem]
    exact h ⟨n, hn⟩
  rw [hlines]
  rfl

theorem endPulsesAt_idle {t : Timebase} {s : State} (h : NoPulseOn t s) (v : Tick) : endPulsesAt t v s = s := by
  refine mapLines_eq_self fun n => if_neg ?_
  simpa only [pulseEndsAt, decide_eq_true_eq] using fun hp => h n _ hp rfl

theorem endPulsesOnLoad_idle {t : Timebase} {s : State} (h : NoPulseOn t s) : endPulsesOnLoad t s = s := by
  refine mapLines_eq_self fun n => if_neg ?_
  unfold pulseTimedOn
  cases hp : (s.line n).pulse with
  | none => simp
  | some p => simpa using h n p hp

theorem PerTb.set_get_self {α : Type} (p : PerTb α) (t : Timebase) : p.set t (p.get t) = p := by cases t <;> rfl

theorem setDueList_self (t : Timebase) (s : State) : s.setDueList t (s.dueList t) = s := by
  rw [State.setDueList, State.dueList, PerTb.set_get_self]
  rfl

theorem setDueList_of_eq {s : State} {t : Timebase} {l : List SlotId} (h : s.dueList t = l) : s.setDueList t l = s := by
  rw [← h]
  exact setDueList_self t s

/-- A load of TB1 or TB2 with nothing in its list and no pulse on it sets the value. -/
theorem loadTimebase_idle {t : Timebase} {s : State} (ht : t ≠ .clock) (hl : s.dueList t = []) (hp : NoPulseOn t s)
    (v : Tick) : loadTimebase t v s = s.setTbValue t v := by
  have hl : (s.setTbValue t v).dueList t = [] := hl
  have hcheck : skipCheck t (s.setTbValue t v) = s.setTbValue t v := by
    unfold skipCheck
    simp only [hl, List.filter_nil, sortEntries, List.foldl_nil]
    exact setDueList_of_eq hl
  have hends : endPulsesOnLoad t (s.setTbValue t v) = s.setTbValue t v := endPulsesOnLoad_idle (s := s.setTbValue t v) hp
  simp only [loadTimebase, if_neg ht, hcheck, hends]

/-- The value of a timebase advances by one, and the wrap is noticed (R26). -/
def advance (t : Timebase) (s : State) : State :=
  raiseWrap t (s.tbValue t + 1#24) (s.setTbValue t (s.tbValue t + 1#24))

theorem advance_eq (t : Timebase) (s : State) :
    advance t s = { s with
      tb := { s.tb with values := s.tb.values.set t (s.tbValue t + 1#24) }
      notify := if s.tbValue t + 1#24 = 0#24 then caused (.wrap t) s.notify else s.notify } := by
  unfold advance raiseWrap
  split
  · rw [raiseSource_notify, notifyCause_eq]
    rfl
  · rfl

/-- An arrival with nothing due and no pulse to end has an empty batch. -/
theorem arrived_idle {t : Timebase} {s : State} (hl : s.dueList t = []) (hp : NoPulseOn t s) :
    arrived t s = (advance t s).setBatches (⟨t, s.tbValue t + 1#24, [], [], []⟩ :: s.sched.batches) := by
  have hadvance := advance_eq t s
  have hl' : (advance t s).dueList t = [] := by rw [hadvance]; exact hl
  have hb : (advance t s).sched.batches = s.sched.batches := by rw [hadvance]
  have hbegin : beginArrival t s = (advance t s).setBatches (⟨t, s.tbValue t + 1#24, [], [], []⟩ :: s.sched.batches) := by
    change takeBatch t (s.tbValue t + 1#24) (advance t s) = _
    simp only [takeBatch, hl', List.filter_nil, hb, setDueList_of_eq hl']
  have hp' : NoPulseOn t (beginArrival t s) := by rw [beginArrival_eq]; exact hp
  rw [← endPulsesAt_beginArrival, endPulsesAt_idle hp', hbegin]

/-- It is the advance alone. -/
theorem wholeArrival_idle (request : State → State) {t : Timebase} {s : State} (hl : s.dueList t = []) (hp : NoPulseOn t s) :
    wholeArrival request t s = advance t s := by
  rw [wholeArrival_eq, finishBatch_done (by rw [arrived_idle hl hp]; rfl), arrived_idle hl hp, advance_eq]
  rfl

/-! ### The clock -/

/-- Settles O42, by whether TB0 counts and the period completes the phase. -/
theorem clockAdvancesTB0 : Obligations.ClockAdvancesTB0 := by
  intro s hs v counts periods
  have hperiod : exec .clkPeriod s = .next (clockPeriod s) := taken_of_settled hs
  have harrival : exec .tb0Arrival s = .next (completePhase s) := taken_of_settled hs
  have hcounts : clockCounts s = true ↔ counts := decide_eq_true_iff
  have hperiods : prescalerPeriods s.tb.prescaler = periods := rfl
  rw [hperiod, harrival]
  refine ⟨fun h => ?_, fun h hlt => ?_, fun h hle => ?_, fun h => ?_⟩
  · have hstop : ¬clockCounts s = true := mt hcounts.mp h
    rw [clockPeriod, completePhase, if_neg hstop, if_neg hstop]
    exact ⟨rfl, rfl⟩
  · rw [clockPeriod, if_pos (hcounts.mpr h), hperiods, if_pos hlt]
    rfl
  · rw [clockPeriod, if_pos (hcounts.mpr h), hperiods, if_neg (Nat.not_lt.mpr hle)]
  · rw [completePhase, if_pos (hcounts.mpr h), openClockArrival, beginArrival_eq, ← hs.1,
      ← caused_if_eq (src := .wrap .clock) s.notify 6 (by omega) rfl (v = 0#24)]
    rfl

/-! ### The three steps of a dispatch -/

theorem edgeTo_eq (level : Level) : edgeTo level = edgeOf level := by cases level <;> rfl

theorem selectionMatches_iff (sel : EdgeSelection) (line : Fin 4) (level : Level) :
    selectionMatches sel line (edgeOf level) = true ↔ Selected sel line level := by
  unfold selectionMatches Selected
  cases sel.kind <;> cases level <;> simp [kindMatches, edgeOf]

theorem startsInterval_iff (mode : MeasMode) (level : Level) :
    startsInterval mode (edgeOf level) = true ↔
      ((mode = .periodRise ∨ mode = .high) ∧ level = .high) ∨ ((mode = .periodFall ∨ mode = .low) ∧ level = .low) := by
  cases mode <;> cases level <;> decide

theorem endsInterval_iff (mode : MeasMode) (level : Level) :
    endsInterval mode (edgeOf level) = true ↔
      ((mode = .periodRise ∨ mode = .low) ∧ level = .high) ∨ ((mode = .periodFall ∨ mode = .high) ∧ level = .low) := by
  cases mode <;> cases level <;> decide

theorem runsOn_iff (mode : MeasMode) : runsOn mode = true ↔ mode = .periodRise ∨ mode = .periodFall := by
  cases mode <;> decide

theorem setChannel_self (c : Fin 4) (s : State) : s.setChannel c (s.channel c) = s := by
  simp [State.setChannel, State.setMeas, State.channel]

/-- A channel with the sample of the interval that has ended, and where that leaves its measurement (R131 to R133). -/
theorem sample_eq (v : Tick) {ch : Channel} (h : ch.state = .timing) :
    (if runsOn ch.latched.setup.mode then { addSample (v - ch.start).toNat ch with start := v }
      else { addSample (v - ch.start).toNat ch with state := .waitStart }) =
      { ch with
        state := if runsOn ch.latched.setup.mode then .timing else .waitStart
        start := if runsOn ch.latched.setup.mode then v else ch.start
        count := ch.count + 1
        sum := ch.sum + (v - ch.start).toNat
        min := if ch.count = 0 then (v - ch.start).toNat else Nat.min ch.min (v - ch.start).toNat
        max := if ch.count = 0 then (v - ch.start).toNat else Nat.max ch.max (v - ch.start).toNat } := by
  cases runsOn ch.latched.setup.mode
  · rfl
  · simp only [if_true, addSample, h]

/-- A channel takes an accepted edge as the statements' `measured` says (R131 to R133). -/
theorem acceptEdge_eq (c : Fin 4) (level : Level) (v : Tick) (s : State) :
    acceptEdge c (edgeOf level) v s =
      match (measured c level v (s.channel c)).2 with
      | none => s.setChannel c (measured c level v (s.channel c)).1
      | some report => handReport report (raiseSource (.mc c) (s.setChannel c (measured c level v (s.channel c)).1)) := by
  unfold acceptEdge measured
  simp only [← startsInterval_iff, ← endsInterval_iff, ← runsOn_iff]
  cases hs : (s.channel c).state with
  | off => simp [setChannel_self]
  | waitStart =>
    by_cases h : startsInterval (s.channel c).latched.setup.mode (edgeOf level) = true <;> simp [h, setChannel_self]
  | timing =>
    by_cases h : endsInterval (s.channel c).latched.setup.mode (edgeOf level) = true
    · simp only [h, and_self, if_true, if_false, sample_eq v hs, settleWindow, windowFull, decide_eq_true_eq, ← not_lt,
        reduceCtorEq, false_and]
      by_cases hroom : (s.channel c).count + 1 < 2 ^ (s.channel c).latched.setup.windowExponent.val
      · simp only [hroom, not_true_eq_false, if_true, if_false]
      · simp only [hroom, not_false_eq_true, if_true, if_false]
        rfl
    · simp [h, setChannel_self]

theorem channelEdge_eq (line : Fin 4) (level : Level) (c : Fin 4) (s : State) :
    channelEdge line (edgeOf level) c s = channelMet line level s c := by
  unfold channelEdge channelMet
  rw [acceptEdge_eq]
  rfl

theorem channelsEdge_eq (line : Fin 4) (level : Level) (s : State) :
    channelsEdge line (edgeOf level) s = ([0, 1, 2, 3] : List (Fin 4)).foldl (channelMet line level) s := by
  have h : (fun s c => channelEdge line (edgeOf level) c s) = channelMet line level :=
    funext fun s => funext fun c => channelEdge_eq line level c s
  rw [channelsEdge, h]
  rfl

/-- A change of level on a settled part that is not held safe is a whole dispatch (R110, R113). -/
theorem exec_inputEdge {line : Fin 4} {level : Level} {s : State} (hs : Settled s) (hlevel : s.inputs.last[line] ≠ level)
    (hsafe : s.inputs.safe ≠ .active) (c₁ c₂ : List Claim) :
    exec (.inputEdge line level c₁ c₂) s = .next
      (([0, 1, 2, 3] : List (Fin 4)).foldl (channelMet line level)
        (takeClaims c₂ (releaseHeld line (edgeOf level)
          (takeClaims c₁ (edgeTimebase line (edgeOf level) (setLastLevel line level s)))))) := by
  have hlast : lastLevel s line ≠ level := hlevel
  refine (taken_of_settled hs).trans (congrArg _ ?_)
  rw [inputSeen, if_neg hlast, if_neg hsafe, edgeTo_eq, dispatchEdge, channelsEdge_eq]

/-- An edge that no slot is held for and no channel is open for has no later steps (R58, R130). -/
theorem laterSteps_idle {s : State} (hheld : ∀ i, (s.slot i).state ≠ .held) (hoff : ∀ c, (s.channel c).state = .off)
    (line : Fin 4) (level : Level) :
    ([0, 1, 2, 3] : List (Fin 4)).foldl (channelMet line level) (releaseHeld line (edgeOf level) s) = s := by
  have hrelease : releaseHeld line (edgeOf level) s = s := by
    refine List.foldlRecOn (motive := fun u => u = s) _ _ rfl fun u hu i _ => ?_
    rw [hu, if_neg (by simp [edgeReleases, hheld i])]
  rw [hrelease]
  refine List.foldlRecOn (motive := fun u => u = s) _ _ rfl fun u hu c _ => ?_
  rw [hu, channelMet]
  exact if_neg fun h => h.1 (hoff c)

/-- What the first step of a dispatch does, by what the edge matches (R33, R34). -/
theorem edgeTimebase_eq (line : Fin 4) (level : Level) (s : State) :
    (Selected s.tb.clearSelection line level →
      edgeTimebase line (edgeOf level) s = loadTimebase .edge 0#24 s) ∧
    (¬ Selected s.tb.clearSelection line level → Selected s.tb.countSelection line level → s.tb.enables.edge = true →
      edgeTimebase line (edgeOf level) s = wholeArrival stepRequest .edge s) ∧
    (¬ Selected s.tb.clearSelection line level → (Selected s.tb.countSelection line level → s.tb.enables.edge = false) →
      edgeTimebase line (edgeOf level) s = s) := by
  simp only [edgeTimebase, ← selectionMatches_iff, Bool.and_eq_true]
  refine ⟨fun h => if_pos h, fun h hc he => ?_, fun h hc => ?_⟩
  · rw [if_neg h, if_pos ⟨hc, he⟩]
  · rw [if_neg h, if_neg fun hm => by simp [hc hm.1] at hm]

/-- Settles O38: the first step by what the edge matches, and the whole dispatch where nothing else meets it. -/
theorem edgeClearsOrCountsTB1 : Obligations.EdgeClearsOrCountsTB1 := by
  intro line level c₁ c₂ s hs hlevel hsafe s' between laterSteps
  have hseen : setLastLevel line level s = s' := rfl
  have hexec := fun c₁ c₂ => exec_inputEdge hs hlevel hsafe c₁ c₂
  obtain ⟨hclear, hcount, hneither⟩ := edgeTimebase_eq line level s'
  refine ⟨fun h => ?_, fun h hc he => ?_, fun h hc => ?_, fun hlist hheld hoff hpulse => ?_⟩
  · exact (hexec c₁ c₂).trans (congrArg (fun u => Host.Outcome.next (laterSteps u)) (hclear h))
  · rw [← wholeArrival_eq]
    exact (hexec c₁ c₂).trans (congrArg (fun u => Host.Outcome.next (laterSteps u)) (hcount h hc he))
  · exact (hexec c₁ c₂).trans (congrArg (fun u => Host.Outcome.next (laterSteps u)) (hneither h hc))
  · have hidle : ∀ u : State, u.sched = s.sched → u.meas = s.meas → edgeTimebase line (edgeOf level) s' = u →
        exec (.inputEdge line level [] []) s = .next u := by
      intro u hsched hmeas hu
      rw [hexec, hseen, takeClaims, List.foldl_nil, takeClaims, List.foldl_nil, hu]
      refine congrArg _ ?_
      exact laterSteps_idle (fun i => by rw [State.slot, hsched]; exact hheld i)
        (fun c => by rw [State.channel, hmeas]; exact hoff c) line level
    have hlist' : s'.dueList .edge = [] := hlist
    have hpulse' : NoPulseOn .edge s' := hpulse
    refine ⟨fun h => ?_, fun h hc he => ?_, fun h hc he => ?_⟩
    · exact hidle _ rfl rfl ((hclear h).trans (loadTimebase_idle (by decide) hlist' hpulse' _))
    · refine hidle _ rfl rfl ((hcount h hc he).trans ((wholeArrival_idle _ hlist' hpulse').trans ?_))
      rw [advance_eq, caused_if_eq (src := .wrap .edge) s'.notify 7 (by omega) rfl]
      rfl
    · exact hidle _ rfl rfl (hneither h fun _ => he)

end Sys2Proof.Timebases
end

section
/-!
PROOFS. A batch and its deferred list (O43): one entry of a batch fires and leaves in the record what it has deferred, and one
deferred operation is applied and leaves the record as it was. A batch of MARK, STEP and own-timebase LOAD_TB entries fires by
its bookkeeping alone, and then applies what it has deferred.
-/
namespace Sys2Proof.Timebases

open Sys2Proof.Machine Sys2Proof.Safety Sys2Proof.ActionTable

/-! ### One entry, one deferred operation -/

section

variable {request : State → State} {s : State} {t : Timebase} {v : Tick} {i : SlotId} {rest : List SlotId}
  {ops : List Deferred} {outer : List BatchRecord}

/-- BATCH_FIRE takes the one batch record held to its end. -/
theorem exec_batchFire {b : BatchRecord} (hb : s.sched.batches = [b]) (hn : s.notices.lines = none) :
    exec .batchFire s = .next (finishBatch stepRequest s) := by
  have hheld : ¬s.sched.batches.isEmpty = true := by simp [hb]
  change Host.Outcome.next (if s.sched.batches.isEmpty then s else takeBatchNotice s) = _
  rw [if_neg hheld, takeBatchNotice, takeLineNotice_none hn, finishBatches, hb]
  rfl

/-- The first waiting entry fires, and the rest of the batch is taken from what its fire has left (R68, R70). -/
theorem finishBatch_fire (h : s.sched.batches = ⟨t, v, i :: rest, [], ops⟩ :: outer) :
    let begun := s.setBatches (⟨t, v, rest, [i], ops⟩ :: outer)
    let acted := fireAction passOfAFire (s.slot i).record v begun
    let fired := leaveChain i (entryFired i v false acted.2 acted.1)
    finishBatch request s = finishBatch request fired ∧
      ∃ new, fired.sched.batches = ⟨t, v, rest, [], ops ++ new⟩ :: outer := by
  intro begun acted fired
  have hfired : fire Config.chainLimit i v false (updateBatch (fun b => { b with waiting := rest }) s) = fired := by
    have hbegun : enterChain i (updateBatch (fun b => { b with waiting := rest }) s) = begun := by
      rw [enterChain, updateBatch_eq, updateBatch_eq, h]
      rfl
    have hslot : (updateBatch (fun b => { b with waiting := rest }) s).slot i = s.slot i := by rw [updateBatch_eq]; rfl
    rw [Config.chainLimit, fire_succ, hbegun, hslot]
    rfl
  obtain ⟨-, new, hnew⟩ := firing_collects (fun j w u => fire_collects 31 j w true u) i v false (s.slot i).record begun
  have hbatches : fired.sched.batches = ⟨t, v, rest, [], ops ++ new⟩ :: outer := by
    have hnew : (entryFired i v false acted.2 acted.1).sched.batches = ⟨t, v, rest, [i], ops ++ new⟩ :: outer := hnew
    simp [fired, leaveChain, updateBatch_eq, hnew]
  refine ⟨?_, new, hbatches⟩
  simp only [finishBatch, h, hbatches, fireWaiting, hfired]

/-- Once none is waiting, the end of a batch is its deferred list (R87). -/
theorem finishBatch_deferred (h : s.sched.batches = ⟨t, v, [], [], ops⟩ :: outer) :
    finishBatch request s = (applyDeferred request t ops s).setBatches outer := by
  simp only [finishBatch, h, fireWaiting, applyCollected, currentBatch, List.head?_cons]

theorem stepRequest_batches (s : State) : (stepRequest s).sched.batches = s.sched.batches := by
  unfold stepRequest
  split
  · rw [wholeArrival_eq, finishBatch_batches]
    rfl
  · rfl

/-- One deferred operation of a batch of a timebase: a load of that timebase, or a STEP request (R86). -/
def applyOne (request : State → State) (t : Timebase) (op : Deferred) (s : State) : State :=
  match op with
  | .load x => loadTimebase t x s
  | .step => request s

/-- The first deferred operation is applied, and the rest of the list from what it has left (R87). -/
theorem finishBatch_apply (hr : ∀ u, (request u).sched.batches = u.sched.batches) {op : Deferred}
    (h : s.sched.batches = ⟨t, v, [], [], op :: ops⟩ :: outer) :
    finishBatch request s = finishBatch request (applyOne request t op (s.setBatches (⟨t, v, [], [], ops⟩ :: outer))) := by
  have hleft : updateBatch (fun b => { b with deferred := ops }) s = s.setBatches (⟨t, v, [], [], ops⟩ :: outer) := by
    rw [updateBatch_eq, h]
    rfl
  rw [finishBatch_deferred h]
  cases op with
  | load x =>
    rw [applyDeferred, hleft]
    exact (finishBatch_deferred ((loadTimebase_ignoresWork t x).keeps _).2).symm
  | step =>
    rw [applyDeferred, hleft]
    exact (finishBatch_deferred (hr _)).symm

end

/-! ### The bookkeeping of one fire -/

section

variable (i j : SlotId) (v : Tick) (late : Bool) (a : Answer) (s : State)

/-- A slot as the last step of its fire leaves it (R82). -/
def firedSlot (v : Tick) (sl : Slot) : Slot :=
  if fireRetires sl then retiredSlot { sl with remaining := 0#16 } else rearmedSlot v sl

theorem slot_entryFired :
    (entryFired i v late a s).slot j = if i = j then firedSlot v (s.slot i) else s.slot j := by
  rw [← entryFired_eq, fireSettle, firedSlot, slot_fireNotify, slot_fireReport]
  by_cases hr : fireRetires (s.slot i) = true
  · rw [if_pos hr, if_pos hr, State.slot_setSlot, slot_fireNotify, slot_fireReport]
  · rw [if_neg hr, if_neg hr]
    change (State.setSlot _ _ _).slot j = _
    rw [State.slot_setSlot, slot_fireNotify, slot_fireReport]

/-- The entry that fires keeps its record, or is cleared. -/
theorem record_firedSlot (sl : Slot) : (firedSlot v sl).record = sl.record ∨ (firedSlot v sl).record = Record.zero := by
  unfold firedSlot retiredSlot
  split
  · split
    · exact .inl rfl
    · exact .inr rfl
  · exact .inl rfl

theorem lines_fireSettle : (fireSettle i v s).lines = s.lines := by
  unfold fireSettle
  dsimp only
  split <;> rfl

theorem lines_entryFired : (entryFired i v late a s).lines = s.lines := by
  rw [← entryFired_eq, lines_fireSettle, fireNotify, fireReport]
  split <;> split <;> simp [raiseSource]

/-- A fire reaches no due list but that of its entry's timebase (R83). -/
theorem dueList_entryFired {t : Timebase} (ht : (s.slot i).record.timebase ≠ t) :
    (entryFired i v late a s).dueList t = s.dueList t := by
  have hlists : (fireNotify i (fireReport i v late a s)).dueList t = s.dueList t :=
    congrArg (fun x : Scheduler × PerTb Tick => x.1.lists.get t)
      ((schedView_fireNotify (i := i)).trans (schedView_fireReport (i := i) (s := s) v late a))
  rw [← entryFired_eq, fireSettle, slot_fireNotify, slot_fireReport]
  split
  · exact hlists
  · have ht' : t ≠ (rearmedSlot v (s.slot i)).record.timebase := Ne.symm ht
    rw [joinList, State.slot_setSlot_same, State.dueList_setDueList_other _ _ _ _ ht']
    exact hlists

end

/-! ### Batches that fire by their bookkeeping alone -/

/-- What the action of a record defers inside a batch of a timebase, for the actions that do nothing else: MARK and a cleared
record, STEP, and a load of the batch's own timebase (R73, R74, R77). -/
inductive Defers (t : Timebase) (r : Record) : List Deferred → Prop where
  | nothing (h : r.kind = none ∨ r.kind = some .mark) : Defers t r []
  | step (h : r.kind = some .step) (ht : t ≠ .step) : Defers t r [.step]
  | load (h : r.kind = some .loadTb) (ht : timebaseOfNat r.target.toNat = some t) : Defers t r [.load r.operand]

theorem Defers.zero (t : Timebase) : Defers t Record.zero [] := .nothing (.inl rfl)

section

variable {request : State → State} {s : State} {t : Timebase} {v : Tick} {i : SlotId} {rest waiting : List SlotId}
  {ops : List Deferred} {outer : List BatchRecord} {f : SlotId → List Deferred}

theorem markFireds_ignoresWork (v : Tick) (l : List SlotId) : IgnoresWork fun s => l.foldl (fun s i => markFired v i s) s :=
  .foldl (fun i => entryFired_ignoresWork i v false .nothing) l

/-- Such an action only adds to the deferred list of its batch, and is answered with nothing (R71). -/
theorem fireAction_of_defers {r : Record} {ds : List Deferred} (h : Defers t r ds) (pass : BitVec 3 → State → State)
    (w : List SlotId) (c : List SlotId) (x : Tick) :
    fireAction pass r x (s.setBatches (⟨t, v, w, c, ops⟩ :: outer)) =
      (s.setBatches (⟨t, v, w, c, ops ++ ds⟩ :: outer), .nothing) := by
  cases h with
  | nothing h =>
    rw [List.append_nil]
    obtain h | h := h
    · simp only [fireAction, h]
    · simp only [fireAction, h]
  | step h ht =>
    have hb : isBatchTimebase .step (s.setBatches (⟨t, v, w, c, ops⟩ :: outer)) = false := by
      simpa [isBatchTimebase, currentBatch] using ht
    simp only [fireAction, h, fireStep, hb, addDeferred, updateBatch_eq]
    rfl
  | load h ht =>
    have hb : isBatchTimebase t (s.setBatches (⟨t, v, w, c, ops⟩ :: outer)) = true := by
      simp [isBatchTimebase, currentBatch]
    simp only [fireAction, h, fireLoad, ht, hb, addDeferred, updateBatch_eq]
    rfl

/-- Its fire is the bookkeeping of a MARK entry, with what it defers in the record of the batch. -/
theorem finishBatch_fire_of_defers {ds : List Deferred} (hd : Defers t (s.slot i).record ds)
    (h : s.sched.batches = ⟨t, v, i :: rest, [], ops⟩ :: outer) :
    finishBatch request s = finishBatch request ((markFired v i s).setBatches (⟨t, v, rest, [], ops ++ ds⟩ :: outer)) := by
  refine (finishBatch_fire h).1.trans (congrArg _ ?_)
  rw [fireAction_of_defers hd]
  dsimp only
  rw [(entryFired_ignoresWork i v false .nothing).setBatches, leaveChain, updateBatch_eq, State.batches_setBatches,
    List.modifyHead_cons]
  simp only [List.filter_cons, ne_eq, not_true_eq_false, decide_false, List.filter_nil]
  rfl

/-- The later entries of the batch still defer what they did: a fire changes no record but its own, and an entry that fires
again defers nothing either time. -/
theorem defers_markFired (hd : ∀ j ∈ i :: rest, Defers t (s.slot j).record (f j))
    (hn : (i :: rest).Nodup ∨ ∀ j ∈ i :: rest, f j = []) :
    ∀ j ∈ rest, Defers t ((markFired v i s).slot j).record (f j) := by
  intro j hj
  rw [markFired, slot_entryFired]
  split
  case isTrue hij =>
    subst hij
    obtain hn | hn := hn
    · exact absurd hj (List.nodup_cons.mp hn).1
    · obtain h | h := record_firedSlot v (s.slot i)
      · rw [h]; exact hd i (.head _)
      · rw [h, hn i (.head _)]; exact .zero t
  case isFalse => exact hd j (.tail _ hj)

/-- A batch of such entries fires one after the other, and leaves all that they have deferred. -/
theorem finishBatch_of_defers (h : s.sched.batches = ⟨t, v, waiting, [], ops⟩ :: outer)
    (hd : ∀ j ∈ waiting, Defers t (s.slot j).record (f j)) (hn : waiting.Nodup ∨ ∀ j ∈ waiting, f j = []) :
    finishBatch request s = finishBatch request
      ((waiting.foldl (fun s i => markFired v i s) s).setBatches (⟨t, v, [], [], ops ++ waiting.flatMap f⟩ :: outer)) := by
  induction waiting generalizing s ops with
  | nil =>
    rw [List.flatMap_nil, List.append_nil, ← h]
    rfl
  | cons i rest ih =>
    rw [finishBatch_fire_of_defers (hd i (.head _)) h, ih (State.batches_setBatches _ _)]
    · rw [(markFireds_ignoresWork v rest).setBatches, List.flatMap_cons, List.append_assoc]
      rfl
    · exact defers_markFired hd hn
    · exact hn.imp (fun h => (List.nodup_cons.mp h).2) fun h j hj => h j (.tail _ hj)

end

/-! ### Deferred lists that meet nothing on TB2 -/

/-- Nothing is due on a timebase, and no pulse is timed on it. -/
structure IdleOn (t : Timebase) (s : State) : Prop where
  dueList : s.dueList t = []
  pulses : NoPulseOn t s

section

variable {s : State} {t : Timebase}

theorem IdleOn.of_eq {s' : State} (h : IdleOn t s) (hl : s'.dueList t = s.dueList t) (hp : s'.lines = s.lines) :
    IdleOn t s' :=
  ⟨hl.trans h.dueList, fun n p => by rw [State.line, hp]; exact h.pulses n p⟩

theorem IdleOn.advance (h : IdleOn t s) (u : Timebase) : IdleOn t (advance u s) := by
  rw [advance_eq]
  exact h.of_eq rfl rfl

/-- A load of another timebase puts nothing on this one: it touches its own list and starts no pulse. -/
theorem IdleOn.loadTimebase (h : IdleOn t s) {u : Timebase} (hu : t ≠ u) (x : Tick) : IdleOn t (loadTimebase u x s) := by
  obtain ⟨sched, heq, -, -, hother, -⟩ := loadTimebase_loaded u x s
  rw [heq]
  refine ⟨(hother t hu).trans h.dueList, fun n p hp => h.pulses n p ?_⟩
  simp only [State.line, Fin.getElem_fin, Vector.getElem_map] at hp ⊢
  split at hp
  · exact hp
  · split at hp
    · cases hp
    · exact hp

/-- On a part where nothing meets TB2 a STEP request is its advance, or nothing (R34). -/
theorem stepRequest_idle (h : IdleOn .step s) (bs : List BatchRecord) :
    stepRequest (s.setBatches bs) =
      (if s.tb.enables.step = true ∧ s.inputs.safe ≠ .active then advance .step s else s).setBatches bs := by
  have hcond : ((s.setBatches bs).tb.enables.step = true ∧ (s.setBatches bs).inputs.safe ≠ .active) ↔
      (s.tb.enables.step = true ∧ s.inputs.safe ≠ .active) := .rfl
  unfold stepRequest
  by_cases hc : s.tb.enables.step = true ∧ s.inputs.safe ≠ .active
  · rw [if_pos (hcond.mpr hc), if_pos hc, wholeArrival_idle id (s := s.setBatches bs) h.dueList h.pulses, advance_eq,
      advance_eq]
    rfl
  · rw [if_neg (mt hcond.mp hc), if_neg hc]

/-- What an entry has deferred, applied at the end of a batch of TB0 (R87). -/
def applied (r : Record) (s : State) : State :=
  if r.kind = some .loadTb then loadTimebase .clock r.operand s
  else if r.kind = some .step ∧ s.tb.enables.step = true ∧ s.inputs.safe ≠ .active then advance .step s
  else s

theorem IdleOn.applied (h : IdleOn .step s) (r : Record) : IdleOn .step (applied r s) := by
  unfold Timebases.applied
  split
  · exact h.loadTimebase (by decide) _
  · split
    · exact h.advance .step
    · exact h

/-- What one entry has deferred is applied from the front of the list of a batch of TB0. -/
theorem finishBatch_applied (h : IdleOn .step s) {r : Record} {ds ops : List Deferred} (hd : Defers .clock r ds) (v : Tick) :
    finishBatch stepRequest (s.setBatches [⟨.clock, v, [], [], ds ++ ops⟩]) =
      finishBatch stepRequest ((applied r s).setBatches [⟨.clock, v, [], [], ops⟩]) := by
  cases hd with
  | nothing hk =>
    obtain hk | hk := hk
    · simp [applied, hk]
    · simp [applied, hk]
  | step hk =>
    refine (finishBatch_apply stepRequest_batches (State.batches_setBatches _ _)).trans (congrArg _ ?_)
    refine (stepRequest_idle h _).trans ?_
    simp [applied, hk]
  | load hk =>
    refine (finishBatch_apply stepRequest_batches (State.batches_setBatches _ _)).trans (congrArg _ ?_)
    refine ((loadTimebase_ignoresWork .clock r.operand).setBatches _ s).trans ?_
    simp [applied, hk]

/-- The whole deferred list is applied, entry by entry. -/
theorem finishBatch_applied_all {records : SlotId → Record} {f : SlotId → List Deferred} (waiting : List SlotId)
    (h : IdleOn .step s) (hd : ∀ i ∈ waiting, Defers .clock (records i) (f i)) (v : Tick) :
    finishBatch stepRequest (s.setBatches [⟨.clock, v, [], [], waiting.flatMap f⟩]) =
      (waiting.foldl (fun u i => applied (records i) u) s).setBatches [] := by
  induction waiting generalizing s with
  | nil => exact finishBatch_done (State.batches_setBatches _ _)
  | cons i rest ih =>
    rw [List.flatMap_cons, finishBatch_applied h (hd i (.head _)), ih (h.applied _) fun j hj => hd j (.tail _ hj)]
    rfl

/-- Fires of entries of TB0, by their bookkeeping, put nothing on another timebase. -/
theorem IdleOn.markFireds (h : IdleOn t s) (ht : t ≠ .clock) (v : Tick) (l : List SlotId)
    (hl : ∀ i ∈ l, (s.slot i).record.timebase = .clock) : IdleOn t (l.foldl (fun s i => markFired v i s) s) := by
  induction l generalizing s with
  | nil => exact h
  | cons i l ih =>
    have hi : (s.slot i).record.timebase ≠ t := by rw [hl i (.head _)]; exact ht.symm
    refine ih (h.of_eq (dueList_entryFired i v false .nothing s hi) (lines_entryFired i v false .nothing s)) fun j hj => ?_
    change ((entryFired i v false .nothing s).slot j).record.timebase = .clock
    rw [slot_entryFired]
    split
    · obtain hr | hr := record_firedSlot v (s.slot i)
      · rw [hr]; exact hl i (.head _)
      · rw [hr]; rfl
    · exact hl j (.tail _ hj)

end

/-- What an entry of a batch of TB0 defers, by its kind alone. -/
def deferredOf (r : Record) : List Deferred :=
  if r.kind = some .loadTb then [.load r.operand] else if r.kind = some .step then [.step] else []

theorem defers_deferredOf {r : Record}
    (h : r.kind = some .mark ∨ r.kind = some .step ∨ (r.kind = some .loadTb ∧ r.target = 0#3)) :
    Defers .clock r (deferredOf r) := by
  obtain h | h | ⟨h, ht⟩ := h
  · simpa [deferredOf, h] using Defers.nothing (t := .clock) (.inr h)
  · simpa [deferredOf, h] using Defers.step h (t := .clock) (by decide)
  · simpa [deferredOf, h] using Defers.load h (t := .clock) (by rw [ht]; rfl)

/-- Settles O43: one entry, one deferred operation and the end of a batch, and the two batches given whole. -/
theorem batchFiresInListOrderThenDefers : Obligations.BatchFiresInListOrderThenDefers := by
  refine ⟨fun s b hb hn => exec_batchFire hb hn, fun request s t v i rest ops outer h => finishBatch_fire h,
    fun request s t v op ops outer hr h => ?_, fun request s t v outer h => finishBatch_done h, fun s => ?_,
    fun s v waiting h hn => ?_⟩
  · have hr : ∀ u, (request u).sched.batches = u.sched.batches := by
      obtain rfl | rfl := hr
      · exact stepRequest_batches
      · exact fun _ => rfl
    refine (finishBatch_apply hr h).trans ?_
    cases op <;> rfl
  · rw [stepRequest, wholeArrival_eq]
  intro fired
  refine ⟨fun hmark => ?_, fun hsound hlist hpulse hkinds => ?_⟩
  · have hd : ∀ i ∈ waiting, Defers .clock (s.slot i).record [] := fun i hi => .nothing (.inr (hmark i hi))
    rw [exec_batchFire h hn, finishBatch_of_defers h hd (.inr fun _ _ => rfl), List.flatMap_eq_nil_iff.mpr fun _ _ => rfl,
      List.nil_append, finishBatch_done (State.batches_setBatches _ _)]
    rfl
  · obtain hb | ⟨b, -, hb, -, -, -, -, hnodup, hwaiting⟩ := hsound
    · rw [hb] at h; cases h
    obtain rfl : b = ⟨.clock, v, waiting, [], []⟩ := List.singleton_inj.mp (hb.symm.trans h)
    have hd : ∀ i ∈ waiting, Defers .clock (s.slot i).record (deferredOf (s.slot i).record) := fun i hi =>
      defers_deferredOf (hkinds i hi)
    have hidle : IdleOn .step fired :=
      IdleOn.markFireds ⟨hlist, hpulse⟩ (by decide) v waiting fun i hi => (hwaiting i hi).2.1
    rw [exec_batchFire h hn, finishBatch_of_defers h hd (.inl hnodup), List.nil_append,
      finishBatch_applied_all waiting hidle hd]
    rfl

end Sys2Proof.Timebases
end

section
/-!
PROOFS. Slots that join a list, and the passes over the slots: what each slot's turn makes of it is fixed before the pass, so
the pass is given whole. An edge's release of the held entries (O39) and the pass of an ARM_GROUP action are such passes.
-/
namespace Sys2Proof.Arming

open Sys2Proof.Machine Sys2Proof.Safety Sys2Proof.ActionTable Sys2Proof.Timebases

/-! ### Joins -/

section

variable {F : Set SlotId} {B : List BatchRecord} {s : State} {i : SlotId}

theorem setSlot_setSlot (s : State) (i : SlotId) (x y : Slot) : (s.setSlot i x).setSlot i y = s.setSlot i y := by
  simp [State.setSlot, State.setSched]

theorem placedAt_congr {dist dist' : SlotId → Nat} {l : List SlotId} (h : ∀ j ∈ l, dist j = dist' j) (d : Nat)
    (i : SlotId) : placedAt dist d i l = placedAt dist' d i l := by
  have hlow : l.filter (fun j => decide (dist j ≤ d)) = l.filter fun j => decide (dist' j ≤ d) :=
    List.filter_congr fun j hj => by rw [h j hj]
  have hhigh : l.filter (fun j => decide (d < dist j)) = l.filter fun j => decide (d < dist' j) :=
    List.filter_congr fun j hj => by rw [h j hj]
  rw [placedAt, placedAt, hlow, hhigh]

/-- A slot that was in no list takes its place in the list of its timebase, by the distances of the entries there (R43). -/
theorem joinList_setSlot (h : Scheduled F B s) (hi : ∀ t, i ∉ s.dueList t) (sl : Slot) :
    joinList i (s.setSlot i sl) = (s.setSlot i sl).setDueList sl.record.timebase
      (placedAt (fun j => distance (s.slot j).nextDue (s.tbValue sl.record.timebase))
        (distance sl.nextDue (s.tbValue sl.record.timebase)) i (s.dueList sl.record.timebase)) := by
  generalize ht : sl.record.timebase = t
  have hdist : ∀ j ∈ s.dueList t, entryDistance (s.setSlot i sl) t j = distance (s.slot j).nextDue (s.tbValue t) :=
    fun j hj => entryDistance_setSlot_other t sl fun e => hi t (e ▸ hj)
  have hordered : (s.dueList t).Pairwise fun j k =>
      entryDistance (s.setSlot i sl) t j ≤ entryDistance (s.setSlot i sl) t k :=
    (h.ordered t).imp_of_mem fun hj hk hjk => by rwa [hdist _ hj, hdist _ hk]
  have hown : entryDistance (s.setSlot i sl) t i = distance sl.nextDue (s.tbValue t) := by simp [entryDistance]
  have hjoin : joinList i (s.setSlot i sl) =
      (s.setSlot i sl).setDueList t (insertEntry (entryDistance (s.setSlot i sl) t) i (s.dueList t)) := by
    rw [joinList, State.slot_setSlot_same, ht]
    rfl
  rw [hjoin, insertEntry_eq_placedAt _ i hordered, hown, placedAt_congr hdist]

/-- The lists are sound but for the ARMED slots that stand in none. -/
theorem scheduled_of_dueListSound (h : ∀ t ∈ allTimebases, DueListSound s t) :
    Scheduled {j | (s.slot j).state = .armed ∧ ∀ t, j ∉ s.dueList t} s.sched.batches s := by
  have hlist := fun t => h t (mem_allTimebases t)
  refine ⟨fun t => (hlist t).1, fun t j hj => ?_, fun t => (hlist t).2.2, fun j hj => ?_, rfl⟩
  · obtain ⟨ha, ht, -⟩ := (hlist t).2.1 j hj
    exact ⟨ha, ht, fun hF => hF.2 t hj⟩
  · refine Classical.or_iff_not_imp_left.mpr fun hout => ⟨hj, fun t ht => hout ?_⟩
    rwa [((hlist t).2.1 j ht).2.1]

end

/-! ### Passes over the slots -/

/-- What the turn of a slot in a pass over the slots makes of it: nothing, a slot in no list, an ARMED slot that joins its
list, or a record that is handed. -/
inductive Turn where
  | passes
  | kept (sl : Slot)
  | joins (sl : Slot)
  | hands (r : Report)

/-- The turn of a slot is taken. -/
def Turn.take (i : SlotId) (s : State) : Turn → State
  | .passes => s
  | .kept sl => s.setSlot i sl
  | .joins sl => joinList i (s.setSlot i sl)
  | .hands r => handReport r s

/-- The slot after its turn. -/
def Turn.slot (sl : Slot) : Turn → Slot
  | .passes => sl
  | .kept sl' => sl'
  | .joins sl' => sl'
  | .hands _ => sl

/-- Whether the slot joins the list of a timebase at its turn. -/
def Turn.joinsList (t : Timebase) : Turn → Bool
  | .passes => false
  | .kept _ => false
  | .joins sl => decide (sl.record.timebase = t)
  | .hands _ => false

/-- The queue and the notification controller after the turn. -/
def Turn.report (qn : ReportQueue × NotifyUnit) : Turn → ReportQueue × NotifyUnit
  | .passes => qn
  | .kept _ => qn
  | .joins _ => qn
  | .hands r => handed r qn

/-- A turn changes only a slot that is neither ARMED nor in hand, and arms it exactly when it joins a list. -/
def Turn.Allowed (F : Set SlotId) (i : SlotId) (sl : Slot) : Turn → Prop
  | .passes => True
  | .kept sl' => sl.state ≠ .armed ∧ sl'.state ≠ .armed
  | .joins sl' => sl.state ≠ .armed ∧ sl'.state = .armed ∧ i ∉ F
  | .hands _ => True

section

variable {F : Set SlotId} {B : List BatchRecord} {s u : State} {i : SlotId}

theorem slot_handReport (r : Report) (s : State) (j : SlotId) : (handReport r s).slot j = s.slot j := by
  rw [State.slot, handReport_sched, State.slot]

theorem Turn.slot_take (x : Turn) (i j : SlotId) (s : State) :
    (x.take i s).slot j = if i = j then x.slot (s.slot j) else s.slot j := by
  cases x with
  | passes => simp [take, Turn.slot]
  | kept sl => exact State.slot_setSlot s i j sl
  | joins sl => exact State.slot_setSlot s i j sl
  | hands r => simp [take, Turn.slot, slot_handReport]

/-- The turns of a pass leave the timebases and the batch records alone, and every block but the scheduler, the queue and the
notification controller. -/
theorem Turn.take_eq (x : Turn) (i : SlotId) (s : State) :
    ∃ sched : Scheduler, sched.batches = s.sched.batches ∧
      x.take i s =
        { s with
          sched := sched
          queue := (x.report (s.queue, s.notify)).1
          notify := (x.report (s.queue, s.notify)).2 } := by
  cases x with
  | passes => exact ⟨s.sched, rfl, rfl⟩
  | kept sl => exact ⟨(s.setSlot i sl).sched, rfl, rfl⟩
  | joins sl => exact ⟨(joinList i (s.setSlot i sl)).sched, rfl, rfl⟩
  | hands r => exact ⟨s.sched, rfl, handReport_eq r s⟩

/-- An allowed turn keeps the lists sound. -/
theorem Turn.Allowed.scheduled {x : Turn} (h : Scheduled F B s) (hx : x.Allowed F i (s.slot i)) :
    Scheduled F B (x.take i s) := by
  cases x with
  | passes => exact h
  | kept sl => exact h.setSlot_disarmed (h.not_listed_of_not_armed hx.1) hx.2
  | joins sl => exact h.arm (h.not_listed_of_not_armed hx.1) hx.2.2 hx.2.1
  | hands r => exact h.of_view (schedView_handReport r s)

/-- An allowed turn changes no list but that of the entry that joins, which it places (R43). -/
theorem Turn.Allowed.dueList {x : Turn} (h : Scheduled F B s) (hx : x.Allowed F i (s.slot i)) (t : Timebase) :
    (x.take i s).dueList t =
      if x.joinsList t then
        placedAt (fun j => distance (s.slot j).nextDue (s.tbValue t)) (distance (x.slot (s.slot i)).nextDue (s.tbValue t)) i
          (s.dueList t)
      else s.dueList t := by
  cases x with
  | passes => rfl
  | kept sl => rfl
  | hands r => simp [take, joinsList, State.dueList]
  | joins sl =>
    rw [take, joinList_setSlot h (h.not_listed_of_not_armed hx.1)]
    by_cases ht : sl.record.timebase = t
    · subst ht
      simp [joinsList, Turn.slot]
    · simp [joinsList, ht, State.dueList_setDueList_other _ _ _ _ (Ne.symm ht)]

/-- An entry of a list passes at its turn. -/
theorem Turn.Allowed.slot_of_listed {x : Turn} (h : Scheduled F B s) (hx : x.Allowed F i (s.slot i)) {t : Timebase}
    (hi : i ∈ s.dueList t) : x.slot (s.slot i) = s.slot i := by
  have harmed := (h.entry t i hi).1
  cases x with
  | passes => rfl
  | kept sl => exact absurd harmed hx.1
  | joins sl => exact absurd harmed hx.1
  | hands r => rfl

/-- A pass given by its turns: each slot is as its turn leaves it, the records are handed in order, and the entries that join
a list are placed in it in the order of the pass. -/
theorem turns_eq (turn : SlotId → Turn) (l : List SlotId) (hl : l.Nodup) (h : Scheduled F B s)
    (hturn : ∀ i ∈ l, (turn i).Allowed F i (s.slot i)) :
    ∃ sched : Scheduler,
      l.foldl (fun u i => (turn i).take i u) s =
        { s with
          sched := sched
          queue := (l.foldl (fun qn i => (turn i).report qn) (s.queue, s.notify)).1
          notify := (l.foldl (fun qn i => (turn i).report qn) (s.queue, s.notify)).2 } ∧
      sched.batches = s.sched.batches ∧
      (∀ i : SlotId, sched.slots[i] = if i ∈ l then (turn i).slot (s.slot i) else s.slot i) ∧
      ∀ t, sched.lists.get t = (l.filter fun i => (turn i).joinsList t).foldl
        (fun entries i => placedAt (fun j => distance sched.slots[j].nextDue (s.tbValue t))
          (distance sched.slots[i].nextDue (s.tbValue t)) i entries) (s.dueList t) := by
  induction l generalizing s with
  | nil => exact ⟨s.sched, rfl, rfl, fun i => by simp [State.slot], fun t => rfl⟩
  | cons i rest ih =>
    obtain ⟨hi, hrest⟩ := List.nodup_cons.mp hl
    have hallowed := hturn i (.head _)
    obtain ⟨s₁, hs₁⟩ : ∃ u, u = (turn i).take i s := ⟨_, rfl⟩
    obtain ⟨sched₁, hb₁, htake⟩ := (turn i).take_eq i s
    rw [← hs₁] at htake
    have hsound : Scheduled F B s₁ := hs₁ ▸ hallowed.scheduled h
    have hslot : ∀ j, s₁.slot j = if i = j then (turn i).slot (s.slot j) else s.slot j := fun j => by
      rw [hs₁, Turn.slot_take]
    have hlater : ∀ j ∈ rest, s₁.slot j = s.slot j := fun j hj => by
      rw [hslot, if_neg fun e : i = j => hi (e ▸ hj)]
    have htb : ∀ t, s₁.tbValue t = s.tbValue t := fun t => by rw [htake]; rfl
    obtain ⟨sched, heq, hb, hslots₁, hlists⟩ := ih hrest hsound fun j hj => by
      rw [hlater j hj]; exact hturn j (.tail _ hj)
    have hslots : ∀ j : SlotId, sched.slots[j] = if j ∈ i :: rest then (turn j).slot (s.slot j) else s.slot j := by
      intro j
      rw [hslots₁, hslot]
      by_cases hij : i = j
      · subst hij
        simp [hi]
      · simp [hij, Ne.symm hij]
    refine ⟨sched, ?_, ?_, hslots, fun t => ?_⟩
    · rw [List.foldl_cons, ← hs₁, heq, htake]
      rfl
    · rw [hb, htake, hb₁]
    · have hfixed : ∀ j ∈ s.dueList t, sched.slots[j] = s.slot j := fun j hj => by
        rw [hslots]
        split
        case isTrue hm => exact (hturn j hm).slot_of_listed h hj
        case isFalse => rfl
      have hown : sched.slots[i] = (turn i).slot (s.slot i) := by rw [hslots, if_pos (.head _)]
      have hlist : s₁.dueList t = if (turn i).joinsList t then
          placedAt (fun j => distance sched.slots[j].nextDue (s.tbValue t)) (distance sched.slots[i].nextDue (s.tbValue t)) i
            (s.dueList t) else s.dueList t := by
        rw [hs₁, hallowed.dueList h, hown, placedAt_congr fun j hj => by rw [← hfixed j hj]]
      simp only [hlists, htb, hlist, List.filter_cons]
      split <;> rfl

/-- A pass whose step is decided by the slot, the timebases and the batch records takes the turns they give at its start. -/
theorem foldl_eq_turns {f : State → SlotId → State} {turn : SlotId → Turn}
    (hf : ∀ i u, u.slot i = s.slot i → u.tb = s.tb → u.sched.batches = s.sched.batches → f u i = (turn i).take i u)
    (l : List SlotId) (hl : l.Nodup) : l.foldl f s = l.foldl (fun u i => (turn i).take i u) s := by
  suffices h : ∀ u : State, (∀ i ∈ l, u.slot i = s.slot i) → u.tb = s.tb → u.sched.batches = s.sched.batches →
      l.foldl f u = l.foldl (fun u i => (turn i).take i u) u from h s (fun _ _ => rfl) rfl rfl
  induction l with
  | nil => exact fun _ _ _ _ => rfl
  | cons i rest ih =>
    intro u hslot htb hb
    obtain ⟨hi, hrest⟩ := List.nodup_cons.mp hl
    obtain ⟨sched, hb', htake⟩ := (turn i).take_eq i u
    rw [List.foldl_cons, List.foldl_cons, hf i u (hslot i (.head _)) htb hb]
    refine ih hrest _ (fun j hj => ?_) ?_ ?_
    · rw [Turn.slot_take, if_neg fun e : i = j => hi (e ▸ hj)]
      exact hslot j (.tail _ hj)
    · rw [htake]
      exact htb
    · rw [htake]
      exact hb'.trans hb

/-- The records of a pass are handed in its order, by the slots that hand one. -/
theorem foldl_report_eq_filter {p : SlotId → Bool} {r : SlotId → Report} {turn : SlotId → Turn}
    (h : ∀ i qn, (turn i).report qn = if p i then handed (r i) qn else qn) (l : List SlotId)
    (qn : ReportQueue × NotifyUnit) :
    l.foldl (fun qn i => (turn i).report qn) qn = (l.filter p).foldl (fun qn i => handed (r i) qn) qn := by
  simp only [h, List.foldl_filter]

end

/-! ### The release of held entries -/

theorem holdMatches_iff (h : HoldEdge) (level : Level) :
    holdMatches h (edgeOf level) = true ↔ h = .both ∨ (h = .rise ∧ level = .high) ∨ (h = .fall ∧ level = .low) := by
  cases h <;> cases level <;> decide

theorem edgeReleases_iff (line : Fin 4) (level : Level) (sl : Slot) :
    edgeReleases line (edgeOf level) sl = true ↔ Released line level sl := by
  simp only [edgeReleases, Bool.and_eq_true, decide_eq_true_eq, holdMatches_iff, and_assoc]

/-- A HELD slot as its release leaves it (R58). -/
def releasedSlot (s : State) (sl : Slot) : Slot :=
  { sl with state := .armed, nextDue := s.tbValue sl.record.timebase + sl.record.due }

/-- The turn of a slot as an edge releases the held entries (R58). -/
def releaseTurn (line : Fin 4) (level : Level) (s : State) (i : SlotId) : Turn :=
  if Released line level (s.slot i) then .joins (releasedSlot s (s.slot i)) else .passes

theorem releaseHeld_eq_turns (line : Fin 4) (level : Level) (s : State) :
    releaseHeld line (edgeOf level) s = allSlots.foldl (fun u i => (releaseTurn line level s i).take i u) s := by
  refine foldl_eq_turns (fun i u hslot htb _ => ?_) allSlots (List.nodup_finRange 32)
  have htbv : ∀ t, u.tbValue t = s.tbValue t := fun t => by rw [State.tbValue, htb, State.tbValue]
  rw [hslot, releaseTurn]
  by_cases h : Released line level (s.slot i)
  · rw [if_pos h, if_pos ((edgeReleases_iff ..).mpr h), Turn.take, releasedSlot, releaseEntry]
    simp only [hslot, htbv]
  · rw [if_neg h, if_neg (mt (edgeReleases_iff ..).mp h), Turn.take]

/-- No release reaches the channels. -/
theorem releaseHeld_meas (line : Fin 4) (e : Edge) (s : State) : (releaseHeld line e s).meas = s.meas := by
  unfold releaseHeld
  refine List.foldlRecOn (motive := fun u : State => u.meas = s.meas) _ _ rfl fun u hu i _ => ?_
  split <;> exact hu

/-- An edge that meets no open channel has no third step (R130). -/
theorem channelsMet_idle {line : Fin 4} {s : State}
    (h : ∀ c, (s.channel c).state ≠ .off → (s.channel c).latched.setup.input ≠ line) (level : Level)
    (l : List (Fin 4)) : l.foldl (channelMet line level) s = s :=
  List.foldlRecOn (motive := fun u => u = s) _ _ rfl fun u hu c _ => by
    rw [hu, channelMet]
    exact if_neg fun hm => h c hm.1 hm.2.1

/-- Settles O39: the release is the pass of the slots' turns, and the other two steps meet nothing. -/
theorem edgeReleasesHeldEntries : Obligations.EdgeReleasesHeldEntries := by
  refine ⟨fun line level s h => ?_, fun line level s hs hlevel hsafe hclear hcount hoff => ?_⟩
  · have hreport : ∀ i qn, (releaseTurn line level s i).report qn = qn := fun i qn => by
      unfold releaseTurn; split <;> rfl
    have hallowed : ∀ i ∈ allSlots,
        (releaseTurn line level s i).Allowed {j | (s.slot j).state = .armed ∧ ∀ t, j ∉ s.dueList t} i (s.slot i) := by
      intro i _
      unfold releaseTurn
      split
      case isTrue hr =>
        have hheld : (s.slot i).state ≠ .armed := by simp [hr.1]
        exact ⟨hheld, rfl, fun hF => hheld hF.1⟩
      case isFalse => trivial
    obtain ⟨sched, heq, hb, hslots, hlists⟩ :=
      turns_eq (releaseTurn line level s) allSlots (List.nodup_finRange 32) (scheduled_of_dueListSound h) hallowed
    refine ⟨sched, ?_, hb, fun i => ?_, fun t => ?_⟩
    · rw [releaseHeld_eq_turns, heq]
      simp only [hreport, List.foldl_fixed]
    · have hi : i ∈ allSlots := List.mem_finRange i
      rw [hslots, if_pos hi, releaseTurn]
      split <;> rfl
    · rw [hlists]
      refine congrArg (List.foldl _ _) (List.filter_congr fun i _ => ?_)
      rw [releaseTurn, Bool.decide_and]
      by_cases hr : Released line level (s.slot i)
      · rw [if_pos hr, decide_eq_true hr, Bool.true_and]
        rfl
      · rw [if_neg hr, decide_eq_false hr, Bool.false_and]
        rfl
  · have hnone : ∀ sel : EdgeSelection, (sel.on = true → sel.line ≠ line) → ¬Selected sel line level :=
      fun sel h hsel => h hsel.1 hsel.2.1
    have hfirst : edgeTimebase line (edgeOf level) (setLastLevel line level s) = setLastLevel line level s := by
      obtain ⟨-, -, hneither⟩ := edgeTimebase_eq line level (setLastLevel line level s)
      exact hneither (hnone _ hclear) fun h => absurd h (hnone _ hcount)
    rw [exec_inputEdge hs hlevel hsafe, takeClaims, List.foldl_nil, takeClaims, List.foldl_nil, hfirst, channelsMet_idle]
    · rfl
    · intro c
      rw [State.channel, releaseHeld_meas]
      exact hoff c

end Sys2Proof.Arming
end

section
/-!
PROOFS. The arm step of the host commands: ARM (O15, O16) and ARM_GROUP (O17). What the step makes of its slot is said once,
by what it finds; a fire at once is a batch of one.
-/
namespace Sys2Proof.Arming

open Sys2Proof.Machine Sys2Proof.Safety Sys2Proof.ActionTable Sys2Proof.Timebases

/-! ### The arm step by what it finds -/

/-- An entry without a hold that is behind against the value its timebase holds (R28, R47). -/
abbrev Late (s : State) (sl : Slot) : Prop :=
  sl.record.holdEdge = .absent ∧ 8388608 < distance sl.record.due (s.tbValue sl.record.timebase)

/-- An entry without a hold that is ahead of the value its timebase holds (R28, R47). -/
abbrev Ahead (s : State) (sl : Slot) : Prop :=
  sl.record.holdEdge = .absent ∧ distance sl.record.due (s.tbValue sl.record.timebase) ≤ 8388608

section

variable {s : State} {i : SlotId} {origin : ArmOrigin} {fireNow : SlotId → Tick → State → State}

/-- A slot that cannot be armed is passed over (R47). -/
theorem armStep_passed (h : ¬((s.slot i).state = .staged ∨ (s.slot i).state = .spent)) :
    armOutcome s i = .passed ∧ armStep origin fireNow i s = s := by
  have ha : isArmable (s.slot i) = false := by simpa [isArmable] using h
  have ho : armOutcome s i = .passed := by simp [armOutcome, ha]
  exact ⟨ho, by simp only [armStep, ho]⟩

variable (ha : (s.slot i).state = .staged ∨ (s.slot i).state = .spent)
include ha

/-- An entry with a hold is held (R47). -/
theorem armStep_held (hh : (s.slot i).record.holdEdge ≠ .absent) :
    armOutcome s i = .held ∧ armStep origin fireNow i s = s.setSlot i (armedAs .held 0#24 (s.slot i)) := by
  have ha' := (isArmable_iff _).mpr ha
  have ho : armOutcome s i = .held := by simp [armOutcome, ha', hh]
  exact ⟨ho, by simp only [armStep, ho]; rfl⟩

/-- An entry that is ahead joins its list (R47). -/
theorem armStep_ahead (h : Ahead s (s.slot i)) :
    armOutcome s i = .armed ∧
      armStep origin fireNow i s = joinList i (s.setSlot i (armedAs .armed (s.slot i).record.due (s.slot i))) := by
  have ha' := (isArmable_iff _).mpr ha
  have ho : armOutcome s i = .armed := by simp [armOutcome, ha', h.1, isAhead, Config.aheadLimit, h.2]
  exact ⟨ho, by simp only [armStep, ho]; rfl⟩

/-- A late entry under REFUSE is refused, with the flag of the step's origin (R48). -/
theorem armStep_refused (h : Late s (s.slot i)) (hp : (s.slot i).record.latePolicy = .refuse) :
    armOutcome s i = .refused ∧
      armStep origin fireNow i s =
        handReport (.refused i (s.slot i).record.timebase (origin == .action) (origin == .groupCommand)) s := by
  have ha' := (isArmable_iff _).mpr ha
  have ho : armOutcome s i = .refused := by simp [armOutcome, ha', h.1, isAhead, Config.aheadLimit, Nat.not_le.mpr h.2, hp]
  exact ⟨ho, by simp only [armStep, ho]⟩

/-- A late entry under FIRE_NOW fires at once, given the value it was judged against (R49). -/
theorem armStep_fired (h : Late s (s.slot i)) (hp : (s.slot i).record.latePolicy = .fireNow) :
    armOutcome s i = .fired ∧
      armStep origin fireNow i s = fireNow i (s.tbValue (s.slot i).record.timebase)
        (s.setSlot i (armedAs .armed (s.slot i).record.due (s.slot i))) := by
  have ha' := (isArmable_iff _).mpr ha
  have ho : armOutcome s i = .fired := by simp [armOutcome, ha', h.1, isAhead, Config.aheadLimit, Nat.not_le.mpr h.2, hp]
  exact ⟨ho, by simp only [armStep, ho]; rfl⟩

/-- A slot that can be armed is in no list (R2). -/
theorem not_listed_of_armable (hsound : SchedulerSound s) (t : Timebase) : i ∉ s.dueList t :=
  (schedulerSound_iff.mp hsound).1.not_listed_of_not_armed (by obtain h | h := ha <;> simp [h]) t

/-- In sound lists the place of an entry that is ahead is the one R43 gives. -/
theorem joinList_armed (hsound : SchedulerSound s) (sl : Slot) :
    joinList i (s.setSlot i sl) = (s.setSlot i sl).setDueList sl.record.timebase
      (placedAt (fun j => distance (s.slot j).nextDue (s.tbValue sl.record.timebase))
        (distance sl.nextDue (s.tbValue sl.record.timebase)) i (s.dueList sl.record.timebase)) :=
  joinList_setSlot (schedulerSound_iff.mp hsound).1 (not_listed_of_armable ha hsound) sl

end

/-! ### ARM at its completion -/

theorem exec_armCompletion {s : State} {a : Byte} {i : SlotId} (hs : Settled s) (he : s.window.engine = some ⟨.arm, a⟩)
    (hi : a.toNat = i.val) :
    exec .armCompletion s = .next
      (afterCompletion (armStatus (armOutcome s i)) 0x4#4 a (armStep .command hostFireNow i s)) := by
  have hslot : argumentSlot a = i := argumentSlot_eq (by omega)
  have hwork : exec .armCompletion s = .next (armWork ⟨.arm, a⟩ s) := taken_workIf hs he
  rw [hwork, armWork]
  simp only [hslot, finishCommand_eq]
  rfl

/-- Settles O15, by what the arm step finds. -/
theorem armCompletionByWhatItFinds : Obligations.ArmCompletionByWhatItFinds := by
  intro s a i hs hsound he hi sl t d
  rw [exec_armCompletion hs he hi]
  refine ⟨fun h1 h2 => ?_, fun ha => ⟨fun hh => ?_, fun hh hd => ?_, fun hh hd hp => ?_⟩⟩
  · obtain ⟨ho, hstep⟩ := armStep_passed (fun h => h.elim h1 h2)
    rw [ho, hstep]
    rfl
  · obtain ⟨ho, hstep⟩ := armStep_held ha hh
    rw [ho, hstep]
    rfl
  · obtain ⟨ho, hstep⟩ := armStep_ahead ha ⟨hh, hd⟩
    rw [ho, hstep, joinList_armed ha hsound]
    rfl
  · obtain ⟨ho, hstep⟩ := armStep_refused ha ⟨hh, hd⟩ hp
    rw [ho, hstep]
    rfl

/-! ### A fire at once -/

section

variable {s : State} {i : SlotId}

/-- The fire at once of a host's arm step is the statements' `firedAtOnce`: what the fire leaves deferred is applied, and its
batch record is given up (R49, R90). -/
theorem hostFireNow_eq (i : SlotId) (s : State) :
    hostFireNow i (s.tbValue (s.slot i).record.timebase)
      (s.setSlot i (armedAs .armed (s.slot i).record.due (s.slot i))) = firedAtOnce i s := by
  set t := (s.slot i).record.timebase with ht
  set v := s.tbValue t with hv
  set u := s.setSlot i (armedAs .armed (s.slot i).record.due (s.slot i)) with hu
  set opened := u.setBatches (⟨t, v, [], [], []⟩ :: s.sched.batches) with hopened
  have hrecord : (opened.slot i).record = (s.slot i).record := by simp [hopened, hu, armedAs]
  have hbegun : enterChain i opened = u.setBatches (⟨t, v, [], [i], []⟩ :: s.sched.batches) := by
    rw [enterChain, updateBatch_eq]
    rfl
  obtain ⟨-, new, hnew⟩ := fire_collects 32 i v true opened fun b hb => by
    obtain rfl : ⟨t, v, [], [], []⟩ = b := by simpa [hopened] using hb
    simp
  have hbatches : (fire 32 i v true opened).sched.batches = ⟨t, v, [], [], new⟩ :: s.sched.batches := hnew
  have hhost : hostFireNow i v u =
      (applyCollected stepRequest t (fire 32 i v true opened)).setBatches s.sched.batches := by
    have htb : (u.slot i).record.timebase = t := hrecord ▸ rfl
    simp only [hostFireNow, htb]
    rfl
  have hfire : fire 32 i v true opened =
      leaveChain i (entryFired i v true (fireAction passOfAFire (s.slot i).record v (enterChain i opened)).2
        (fireAction passOfAFire (s.slot i).record v (enterChain i opened)).1) := by
    rw [fire_succ, hrecord]
    rfl
  rw [hhost, applyCollected, currentBatch, hbatches, List.head?_cons]
  dsimp only
  rw [← finishBatch_deferred hbatches, hfire, hbegun]
  rfl

/-- What a fire tells the host: its FIRED record when report is set, and ENTRY when notify is (R78, R81). -/
def firedNotes (r : Record) (report : Report) (s : State) : State :=
  let reported := if r.report then handReport report s else s
  if r.notify then raiseSource .entry reported else reported

theorem handReport_setSlot (r : Report) (s : State) (i : SlotId) (sl : Slot) :
    handReport r (s.setSlot i sl) = (handReport r s).setSlot i sl := by
  rw [handReport_eq, handReport_eq]
  rfl

theorem firedNotes_setSlot (r : Record) (report : Report) (s : State) (i : SlotId) (sl : Slot) :
    firedNotes r report (s.setSlot i sl) = (firedNotes r report s).setSlot i sl := by
  simp only [firedNotes, handReport_setSlot]
  split <;> split <;> rfl

theorem schedView_firedNotes (r : Record) (report : Report) (s : State) :
    schedView (firedNotes r report s) = schedView s := by
  unfold firedNotes
  dsimp only
  split <;> split <;> simp

/-- A fire of a slot just armed, after an action that nothing was answered to (R82, R83). -/
theorem entryFired_armed (i : SlotId) (v : Tick) (s : State) :
    let sl := s.slot i
    let last := decide (sl.record.period ≠ 0#24 ∧ sl.record.repeatCount = 1#16)
    let notified := firedNotes sl.record (.fired i sl.record.timebase sl.record.due ⟨last, true, false, false⟩) s
    entryFired i v true .nothing (s.setSlot i (armedAs .armed sl.record.due sl)) =
      if sl.record.period = 0#24 ∨ sl.record.repeatCount = 1#16 then
        notified.setSlot i
          (if sl.record.keep then { sl with state := .spent, nextDue := sl.record.due, remaining := 0#16 } else Slot.empty)
      else
        joinList i (notified.setSlot i { sl with
          state := .armed
          nextDue := v + sl.record.period
          remaining := if sl.record.repeatCount = 0#16 then 0#16 else sl.record.repeatCount - 1#16 }) := by
  intro sl last notified
  have hnotes : entryFired i v true .nothing (s.setSlot i (armedAs .armed sl.record.due sl)) =
      let sl' := armedAs .armed sl.record.due sl
      let notified' := firedNotes sl.record (.fired i sl.record.timebase sl.record.due ⟨last, true, false, false⟩)
        (s.setSlot i sl')
      if sl.record.period = 0#24 ∨ sl.record.repeatCount = 1#16 then
        notified'.setSlot i (if sl.record.keep then { sl' with state := .spent, remaining := 0#16 } else Slot.empty)
      else
        joinList i (notified'.setSlot i { sl' with
          state := .armed
          nextDue := v + sl.record.period
          remaining := if sl.record.repeatCount = 0#16 then 0#16 else sl.record.repeatCount - 1#16 }) := by
    simp only [entryFired, State.slot_setSlot_same]
    rfl
  rw [hnotes]
  simp only [firedNotes_setSlot, setSlot_setSlot]
  rfl

theorem setBatches_self_of_ignoresWork {f : State → State} (h : IgnoresWork f) (s : State) :
    (f s).setBatches s.sched.batches = f s := by
  rw [← h.setBatches]
  rfl

/-- The fire of a MARK entry is its bookkeeping alone (R77). -/
theorem fire_mark (hk : (s.slot i).record.kind = some .mark) (hi : OutOfChain i s) (n : Nat) (v : Tick) (late : Bool) :
    fire (n + 1) i v late s = entryFired i v late .nothing s := by
  have hignores := entryFired_ignoresWork i v late .nothing
  have hchain : (s.sched.batches.modifyHead fun b => { b with chain := b.chain ++ [i] }).modifyHead
      (fun b => { b with chain := b.chain.filter (· ≠ i) }) = s.sched.batches := by
    cases hb : s.sched.batches with
    | nil => rfl
    | cons b rest => simp only [List.modifyHead_cons, filter_append_self (hi b (by simp [hb]))]
  rw [fire_succ]
  simp only [fireAction, hk]
  rw [enterChain, updateBatch_eq, hignores.setBatches, leaveChain, updateBatch_eq, State.batches_setBatches, hchain]
  exact setBatches_self_of_ignoresWork hignores s

/-- A fire at once of a MARK entry is its bookkeeping alone, since it defers nothing. -/
theorem firedAtOnce_mark (hk : (s.slot i).record.kind = some .mark) :
    firedAtOnce i s = entryFired i (s.tbValue (s.slot i).record.timebase) true .nothing
      (s.setSlot i (armedAs .armed (s.slot i).record.due (s.slot i))) := by
  set t := (s.slot i).record.timebase with ht
  set v := s.tbValue t with hv
  set u := s.setSlot i (armedAs .armed (s.slot i).record.due (s.slot i)) with hu
  have hrecord : (u.slot i).record = (s.slot i).record := by simp [hu, armedAs]
  have hfire : fire Config.chainLimit i v true (u.setBatches (⟨t, v, [], [], []⟩ :: s.sched.batches)) =
      (entryFired i v true .nothing u).setBatches (⟨t, v, [], [], []⟩ :: s.sched.batches) := by
    rw [← (entryFired_ignoresWork i v true .nothing).setBatches]
    refine fire_mark (hrecord ▸ hk) (fun b hb => ?_) 31 v true
    obtain rfl : ⟨t, v, [], [], []⟩ = b := by simpa using hb
    simp
  have hhost : hostFireNow i v u = (applyCollected stepRequest t
      (fire Config.chainLimit i v true (u.setBatches (⟨t, v, [], [], []⟩ :: s.sched.batches)))).setBatches
        s.sched.batches := by
    simp only [hostFireNow, hrecord]
    rfl
  rw [← hostFireNow_eq, hhost, hfire]
  exact setBatches_self_of_ignoresWork (entryFired_ignoresWork i v true .nothing) u

end

theorem distance_add_self {p : Tick} (h : p ≠ 0#24) (v : Tick) : distance (v + p) v = p.toNat := by
  unfold distance
  bv_omega

/-- Settles O16: the fire at once, and its bookkeeping for a MARK entry. -/
theorem lateArmFiresAtOnce : Obligations.LateArmFiresAtOnce := by
  intro s a i hs hsound he hi sl t v last reported notified ha hh hd hp
  obtain ⟨ho, hstep⟩ := armStep_fired (origin := .command) (fireNow := hostFireNow) ha ⟨hh, hd⟩ hp
  have hexec : exec .armCompletion s = .next (afterCompletion .ok 0x4#4 a (firedAtOnce i s)) := by
    rw [exec_armCompletion hs he hi, ho, hstep, hostFireNow_eq]
    rfl
  have hview : schedView notified = schedView s := schedView_firedNotes sl.record _ s
  refine ⟨hexec, fun hk hlast => ?_, fun hk _ hperiod hrepeat => ?_⟩
  · rw [hexec, firedAtOnce_mark hk, entryFired_armed, if_pos hlast]
    rfl
  · have hsound' : SchedulerSound notified := schedulerSound_of_view hsound hview
    obtain ⟨hsched, hvalues⟩ := Prod.mk.inj hview
    have hslot : ∀ j, notified.slot j = s.slot j := fun j => by rw [State.slot, hsched, State.slot]
    have ha' : (notified.slot i).state = .staged ∨ (notified.slot i).state = .spent := by rw [hslot]; exact ha
    have hlist : notified.dueList t = s.dueList t := by rw [State.dueList, hsched, State.dueList]
    have hvalue : notified.tbValue t = v := by rw [State.tbValue, hvalues]; rfl
    rw [hexec, firedAtOnce_mark hk, entryFired_armed, if_neg (not_or.mpr ⟨hperiod, hrepeat⟩)]
    refine congrArg (fun u => Host.Outcome.next (afterCompletion .ok 0x4#4 a u)) ((joinList_armed ha' hsound' _).trans ?_)
    simp only [hslot]
    change State.setDueList _ t (placedAt (fun j => distance (s.slot j).nextDue (notified.tbValue t))
      (distance (v + sl.record.period) (notified.tbValue t)) i (notified.dueList t)) = _
    rw [hlist, hvalue, distance_add_self hperiod]

/-! ### ARM_GROUP -/

section

variable {s : State} {a : Byte} {i : SlotId} {count : Nat}

/-- One step of ARM_GROUP: its work, and the step to the next slot or the completion with the count (R53, R54). -/
theorem exec_armGroupStep (hs : Settled s) (he : s.window.engine = some ⟨.armGroup i.val count, a⟩) :
    exec .armGroupStep s =
      let count' := if armCounts (groupStepOutcome (argumentGroup a) s i) then count + 1 else count
      let u := groupStepWork (argumentGroup a) i s
      .next (if i.val = 31 then afterCompletion .ok 0x5#4 (BitVec.ofNat 8 count') u
        else u.setWindow { s.window with engine := some ⟨.armGroup (i.val + 1) count', a⟩ }) := by
  have hwork : exec .armGroupStep s = .next (armGroupWork ⟨.armGroup i.val count, a⟩ i.val count s) := taken_workIf hs he
  have hwindow : (groupStepWork (argumentGroup a) i s).window = s.window := by
    unfold groupStepWork
    split
    · exact (armStep_changes _ _ hostFireNow_changes _ s).keeps.window
    · rfl
  have hi := i.isLt
  rw [hwork, armGroupWork, dif_pos hi]
  simp only [finishCommand_eq, hwindow]
  by_cases h31 : i.val = 31
  · rw [if_pos h31, if_neg (by omega)]
    rfl
  · rw [if_neg h31, if_pos (by omega)]

/-- The group that an argument of 1 to 7 names has the slots of that group number, but the FREE ones, for members (R8). -/
theorem isMember_argumentGroup_iff (h1 : 1 ≤ a.toNat) (h7 : a.toNat ≤ 7) (sl : Slot) :
    isMember (argumentGroup a) sl = true ↔ sl.state ≠ .free ∧ sl.record.group.toNat = a.toNat := by
  have hg : (argumentGroup a).toNat = a.toNat := by
    simp only [argumentGroup, BitVec.extractLsb'_toNat]
    omega
  have h0 : argumentGroup a ≠ 0#3 := fun h => by
    rw [h] at hg
    simp at hg
    omega
  have hgroup : sl.record.group = argumentGroup a ↔ sl.record.group.toNat = a.toNat := by rw [← hg, BitVec.toNat_inj]
  simp [isMember, h0, hgroup]

/-- A slot that is no arming member is passed over (R53). -/
theorem groupStep_passed (h1 : 1 ≤ a.toNat) (h7 : a.toNat ≤ 7)
    (h : ¬(((s.slot i).state = .staged ∨ (s.slot i).state = .spent) ∧ (s.slot i).record.group.toNat = a.toNat)) :
    groupStepOutcome (argumentGroup a) s i = .passed ∧ groupStepWork (argumentGroup a) i s = s := by
  unfold groupStepOutcome groupStepWork
  by_cases hm : isMember (argumentGroup a) (s.slot i) = true
  · rw [if_pos hm, if_pos hm]
    exact armStep_passed fun ha => h ⟨ha, ((isMember_argumentGroup_iff h1 h7 _).mp hm).2⟩
  · rw [if_neg hm, if_neg hm]
    exact ⟨rfl, rfl⟩

/-- An arming member takes the arm step (R53). -/
theorem groupStep_member (h1 : 1 ≤ a.toNat) (h7 : a.toNat ≤ 7)
    (ha : (s.slot i).state = .staged ∨ (s.slot i).state = .spent) (hg : (s.slot i).record.group.toNat = a.toNat) :
    groupStepOutcome (argumentGroup a) s i = armOutcome s i ∧
      groupStepWork (argumentGroup a) i s = armStep .groupCommand hostFireNow i s := by
  have hm : isMember (argumentGroup a) (s.slot i) = true :=
    (isMember_argumentGroup_iff h1 h7 _).mpr ⟨by obtain h | h := ha <;> simp [h], hg⟩
  exact ⟨if_pos hm, if_pos hm⟩

end

/-- Settles O17, by what the step finds. -/
theorem armGroupStepTakesOneSlot : Obligations.ArmGroupStepTakesOneSlot := by
  intro s a i count hs hsound he h1 h7 sl t d goOn
  have hexec : ∀ {o : ArmOutcome} {u : State}, groupStepOutcome (argumentGroup a) s i = o →
      groupStepWork (argumentGroup a) i s = u →
      exec .armGroupStep s = .next (goOn (if armCounts o then count + 1 else count) u) := by
    rintro o u rfl rfl
    exact exec_armGroupStep hs he
  refine ⟨fun h => ?_, fun ha hg => ?_⟩
  · obtain ⟨ho, hwork⟩ := groupStep_passed h1 h7 h
    exact hexec ho hwork
  · obtain ⟨ho, hwork⟩ := groupStep_member h1 h7 ha hg
    refine ⟨fun hh => ?_, fun hh hd => ?_, fun hh hd hp => ?_, fun hh hd hp => ?_⟩
    · obtain ⟨ho', hstep⟩ := armStep_held ha hh
      exact hexec (ho.trans ho') (hwork.trans hstep)
    · obtain ⟨ho', hstep⟩ := armStep_ahead ha ⟨hh, hd⟩
      exact hexec (ho.trans ho') (hwork.trans (hstep.trans (joinList_armed ha hsound _)))
    · obtain ⟨ho', hstep⟩ := armStep_refused ha ⟨hh, hd⟩ hp
      exact hexec (ho.trans ho') (hwork.trans hstep)
    · obtain ⟨ho', hstep⟩ := armStep_fired ha ⟨hh, hd⟩ hp
      exact hexec (ho.trans ho') (hwork.trans (hstep.trans (hostFireNow_eq i s)))

end Sys2Proof.Arming
end

section
/-!
PROOFS. The actions that go to no line, at their fire and with their answers (O50), and the pass of an ARM_GROUP action
(O51).
-/
namespace Sys2Proof.Arming

open Sys2Proof.Machine Sys2Proof.Safety Sys2Proof.ActionTable Sys2Proof.Timebases

/-! ### What a group takes inside a batch -/

/-- A slot that is not being fired waits in no batch record and stands in no firing chain (R51, R68). -/
theorem beingFired_eq_false_iff (s : State) (i : SlotId) :
    beingFired s i = false ↔ ∀ b ∈ s.sched.batches, i ∉ b.waiting ∧ i ∉ b.chain := by
  simp [beingFired]

/-- A group cancel takes the ARMED and HELD members that are not being fired (R51, R61). -/
theorem cancelTakes_iff (g : BitVec 3) (s : State) (i : SlotId) :
    cancelTakes g s i = true ↔ g ≠ 0#3 ∧ ((s.slot i).state = .armed ∨ (s.slot i).state = .held) ∧
      (s.slot i).record.group = g ∧ ∀ b ∈ s.sched.batches, i ∉ b.waiting ∧ i ∉ b.chain := by
  simp only [cancelTakes, isMember, Bool.and_eq_true, decide_eq_true_eq, isCancellable_iff, Bool.not_eq_true',
    beingFired_eq_false_iff]
  refine ⟨fun ⟨⟨⟨hg, _, hm⟩, hc⟩, hb⟩ => ⟨hg, hc, hm, hb⟩, fun ⟨hg, hc, hm, hb⟩ => ⟨⟨⟨hg, ?_, hm⟩, hc⟩, hb⟩⟩
  obtain h | h := hc <;> simp [h]

/-- The pass of an ARM_GROUP action takes the STAGED and SPENT members that are not being fired (R51, R55). -/
theorem armTakes_iff (g : BitVec 3) (s : State) (i : SlotId) :
    armTakes g s i = true ↔ g ≠ 0#3 ∧ ((s.slot i).state = .staged ∨ (s.slot i).state = .spent) ∧
      (s.slot i).record.group = g ∧ ∀ b ∈ s.sched.batches, i ∉ b.waiting ∧ i ∉ b.chain := by
  simp only [armTakes, isMember, Bool.and_eq_true, decide_eq_true_eq, isArmable_iff, Bool.not_eq_true',
    beingFired_eq_false_iff]
  refine ⟨fun ⟨⟨⟨hg, _, hm⟩, ha⟩, hb⟩ => ⟨hg, ha, hm, hb⟩, fun ⟨hg, ha, hm, hb⟩ => ⟨⟨⟨hg, ?_, hm⟩, ha⟩, hb⟩⟩
  obtain h | h := ha <;> simp [h]

/-! ### The other actions -/

theorem isBatchTimebase_of_batches {s : State} {b : BatchRecord} {outer : List BatchRecord}
    (h : s.sched.batches = b :: outer) (t : Timebase) : isBatchTimebase t s = decide (t = b.timebase) := by
  rw [isBatchTimebase, currentBatch, h, List.head?_cons]
  exact (beq_eq_decide _ _).trans (decide_eq_decide.mpr eq_comm)

theorem addDeferred_of_batches {s : State} {b : BatchRecord} {outer : List BatchRecord}
    (h : s.sched.batches = b :: outer) (op : Deferred) :
    addDeferred op s = s.setBatches ({ b with deferred := b.deferred ++ [op] } :: outer) := by
  rw [addDeferred, updateBatch_eq, h, List.modifyHead_cons]

theorem targetChannel_eq {target : BitVec 3} {c : Fin 4} (h : target.toNat = c.val) : targetChannel target = c := by
  apply Fin.ext
  simp [targetChannel, BitVec.extractLsb', h]

/-- Settles O50, by the kind of the action. -/
theorem otherActionsAndTheirAnswers : Obligations.OtherActionsAndTheirAnswers := by
  intro g r v s b outer hb deferred
  refine ⟨fun hk => ?_, fun hk t ht => ?_, fun hk => ?_, fun hk => ?_, fun hk => ?_,
    fun c hc => ⟨fun hk => ?_, fun hk => ?_⟩⟩
  · simp only [fireAction, hk]
  · simp only [fireAction, hk, fireLoad, ht, timebaseOfNat_timebaseNumber, isBatchTimebase_of_batches hb,
      addDeferred_of_batches hb, decide_eq_true_eq]
    rfl
  · simp only [fireAction, hk, fireStep, isBatchTimebase_of_batches hb, addDeferred_of_batches hb, decide_eq_true_eq]
    simp only [eq_comm (a := Timebase.step)]
    rfl
  · simp only [fireAction, hk]
  · intro takes
    have htakes : cancelTakes r.target s = takes := by
      funext i
      rw [Bool.eq_iff_iff, cancelTakes_iff, decide_eq_true_eq]
    obtain ⟨sched, heq, hbatches, hslots, hlists⟩ := cancelFold_eq r.target allSlots (List.nodup_finRange 32) s
    refine ⟨sched, ?_, hbatches, fun i => ?_, fun t => ?_⟩
    · simp only [fireAction, hk, cancelMembers, heq]
      rfl
    · rw [hslots]
      simp [allSlots, htakes, retiredSlot]
    · rw [hlists]
      simp [allSlots, htakes]
  · simp only [fireAction, hk, fireOpen, targetChannel_eq hc, openChannel]
    refine ⟨fun h => ?_, fun h => ?_⟩
    · rw [if_neg h, if_neg h]
    · rw [if_pos h, if_pos h]
      rfl
  · simp only [fireAction, hk, fireClose, targetChannel_eq hc, closeChannel]
    refine ⟨fun h => ?_, fun h => ?_⟩
    · rw [if_pos h, if_pos h]
    · rw [if_neg h, if_neg h]
      rfl

/-! ### The pass of an ARM_GROUP action -/

section

variable {g : BitVec 3} {s : State} {fireNow : SlotId → Tick → State → State}

/-- The step of the pass for one slot is the statements' `actionArmed` (R47, R48, R50, R55). -/
theorem armStep_action_eq (fireNow : SlotId → Tick → State → State) (g : BitVec 3) (s : State) (i : SlotId) :
    (if armTakes g s i then armStep .action fireNow i s else s) = actionArmed fireNow g s i := by
  unfold actionArmed
  dsimp only
  by_cases ht : armTakes g s i = true
  · have ht' := (armTakes_iff g s i).mp ht
    have ha := ht'.2.1
    rw [if_pos ht, if_pos ht']
    by_cases hh : (s.slot i).record.holdEdge = .absent
    · rw [if_neg (not_not_intro hh)]
      by_cases hd : distance (s.slot i).record.due (s.tbValue (s.slot i).record.timebase) ≤ 8388608
      · rw [if_pos hd, (armStep_ahead ha ⟨hh, hd⟩).2]
      · have hlate : Late s (s.slot i) := ⟨hh, Nat.not_le.mp hd⟩
        rw [if_neg hd]
        cases hp : (s.slot i).record.latePolicy with
        | refuse => exact (armStep_refused ha hlate hp).2
        | fireNow => exact (armStep_fired ha hlate hp).2
    · rw [if_pos hh, (armStep_held ha hh).2]
  · rw [if_neg ht, if_neg (mt (armTakes_iff g s i).mpr ht)]

theorem groupArmPass_eq (fireNow : SlotId → Tick → State → State) (g : BitVec 3) (s : State) :
    groupArmPass fireNow g s = (List.finRange 32).foldl (actionArmed fireNow g) s := by
  have hstep : (fun u i => if armTakes g u i then armStep .action fireNow i u else u) = actionArmed fireNow g :=
    funext fun u => funext fun i => armStep_action_eq fireNow g u i
  rw [groupArmPass, hstep]
  rfl

/-- The turn of a slot in a pass that fires none at once: a late member is refused with BY_ACTION, another joins its list or
is held (R47, R48). -/
def armTurn (g : BitVec 3) (s : State) (i : SlotId) : Turn :=
  if armTakes g s i then
    if Late s (s.slot i) then .hands (.refused i (s.slot i).record.timebase true false)
    else if (s.slot i).record.holdEdge = .absent then .joins (armedAs .armed (s.slot i).record.due (s.slot i))
    else .kept (armedAs .held 0#24 (s.slot i))
  else .passes

theorem armTakes_congr {u : State} {i : SlotId} (g : BitVec 3) (hslot : u.slot i = s.slot i)
    (hb : u.sched.batches = s.sched.batches) : armTakes g u i = armTakes g s i := by
  simp only [armTakes, beingFired, hslot, hb]

/-- A pass that finds no late member under FIRE_NOW takes the turns of its start. -/
theorem groupArmPass_eq_turns
    (hp : ∀ i, armTakes g s i = true → Late s (s.slot i) → (s.slot i).record.latePolicy = .refuse) :
    groupArmPass fireNow g s = allSlots.foldl (fun u i => (armTurn g s i).take i u) s := by
  refine foldl_eq_turns (fun i u hslot htb hb => ?_) allSlots (List.nodup_finRange 32)
  have hlate : Late u (u.slot i) ↔ Late s (s.slot i) := by simp only [Late, State.tbValue, hslot, htb]
  rw [armTurn, armTakes_congr g hslot hb]
  by_cases ht : armTakes g s i = true
  · have ha : (u.slot i).state = .staged ∨ (u.slot i).state = .spent := by
      rw [hslot]; exact ((armTakes_iff g s i).mp ht).2.1
    rw [if_pos ht, if_pos ht]
    by_cases hl : Late s (s.slot i)
    · rw [if_pos hl, (armStep_refused ha (hlate.mpr hl) (by rw [hslot]; exact hp i ht hl)).2, hslot]
      rfl
    · rw [if_neg hl]
      by_cases hh : (s.slot i).record.holdEdge = .absent
      · have hahead : Ahead u (u.slot i) := by
          rw [hslot]
          refine ⟨hh, Nat.not_lt.mp fun hd => hl (hlate.mp ?_)⟩
          rw [hslot]
          exact ⟨hh, hd⟩
        rw [if_pos hh, (armStep_ahead ha hahead).2, hslot]
        rfl
      · rw [if_neg hh, (armStep_held ha (by rw [hslot]; exact hh)).2, hslot]
        rfl
  · rw [if_neg ht, if_neg ht]
    rfl

theorem armTurn_allowed (g : BitVec 3) (s : State) (i : SlotId) :
    (armTurn g s i).Allowed {j | (s.slot j).state = .armed ∧ ∀ t, j ∉ s.dueList t} i (s.slot i) := by
  unfold armTurn
  split
  case isTrue ht =>
    have ha : (s.slot i).state ≠ .armed := by
      obtain ⟨-, h | h, -⟩ := (armTakes_iff g s i).mp ht <;> simp [h]
    split
    · trivial
    · split
      · exact ⟨ha, rfl, fun hF => ha hF.1⟩
      · exact ⟨ha, by simp [armedAs]⟩
  case isFalse => trivial

/-- What such a turn hands, what it makes of its slot, and which list the slot joins. -/
theorem armTurn_effects (g : BitVec 3) (s : State) (i : SlotId) :
    (∀ qn, (armTurn g s i).report qn =
      if armTakes g s i && decide (Late s (s.slot i)) then handed (.refused i (s.slot i).record.timebase true false) qn
      else qn) ∧
    ((armTurn g s i).slot (s.slot i) =
      if armTakes g s i && !(decide (Late s (s.slot i))) then
        (if (s.slot i).record.holdEdge = .absent then armedAs .armed (s.slot i).record.due (s.slot i)
        else armedAs .held 0#24 (s.slot i))
      else s.slot i) ∧
    ∀ t, (armTurn g s i).joinsList t =
      (armTakes g s i && !(decide (Late s (s.slot i))) &&
        decide ((s.slot i).record.holdEdge = .absent ∧ (s.slot i).record.timebase = t)) := by
  unfold armTurn
  cases armTakes g s i with
  | false => exact ⟨fun _ => rfl, rfl, fun _ => rfl⟩
  | true =>
    by_cases hl : Late s (s.slot i)
    · rw [if_pos rfl, if_pos hl, decide_eq_true hl]
      exact ⟨fun _ => rfl, rfl, fun _ => rfl⟩
    · rw [if_pos rfl, if_neg hl, decide_eq_false hl]
      by_cases hh : (s.slot i).record.holdEdge = .absent
      · rw [if_pos hh, if_pos hh]
        exact ⟨fun _ => rfl, rfl, fun _ => by rw [Bool.decide_and, decide_eq_true hh]; rfl⟩
      · rw [if_neg hh, if_neg hh]
        exact ⟨fun _ => rfl, rfl, fun _ => by rw [Bool.decide_and, decide_eq_false hh]; rfl⟩

/-- The entry whose fire makes the pass is being fired, and the pass takes every other slot as before it began (R51). -/
theorem armTakes_chained {b : BatchRecord} {outer : List BatchRecord} (hb : s.sched.batches = b :: outer) (i k : SlotId) :
    armTakes g (s.setBatches ({ b with chain := b.chain ++ [i] } :: outer)) k = true ↔ armTakes g s k = true ∧ k ≠ i := by
  simp only [armTakes_iff, State.slot_setBatches, State.batches_setBatches, hb, List.forall_mem_cons, List.mem_append,
    List.mem_singleton]
  tauto

/-- A pass over the slots of which only one takes its turn is that turn. -/
theorem foldl_eq_single {f : State → SlotId → State} {j : SlotId} {t : State} (hj : f s j = t)
    (hbefore : ∀ k, k ≠ j → f s k = s) (hafter : ∀ k, k ≠ j → f t k = t) {l : List SlotId} (hl : l.Nodup) (hm : j ∈ l) :
    l.foldl f s = t := by
  induction l with
  | nil => cases hm
  | cons k rest ih =>
    obtain ⟨hk, hrest⟩ := List.nodup_cons.mp hl
    by_cases hkj : k = j
    · subst hkj
      rw [List.foldl_cons, hj]
      exact List.foldlRecOn (motive := fun u => u = t) _ _ rfl fun u hu i hi => by
        rw [hu, hafter i fun e => hk (e ▸ hi)]
    · rw [List.foldl_cons, hbefore k hkj]
      exact ih hrest ((List.mem_cons.mp hm).resolve_left (Ne.symm hkj))

end

/-- Settles O51: the pass by the turns of its start, the pass slot by slot, and the fire that makes a pass with one late MARK
member. -/
theorem armGroupActionArmsItsMembers : Obligations.ArmGroupActionArmsItsMembers := by
  intro g s takes now late
  have htakes : armTakes g s = takes := by
    funext i
    rw [Bool.eq_iff_iff, armTakes_iff, decide_eq_true_eq]
  refine ⟨fun fireNow hsound hrefuse => ?_, fun fireNow => groupArmPass_eq fireNow g s, ?_⟩
  · intro refused
    obtain ⟨sched, heq, hb, hslots, hlists⟩ := turns_eq (armTurn g s) allSlots (List.nodup_finRange 32)
      (scheduled_of_dueListSound hsound) fun i _ => armTurn_allowed g s i
    have hslot : ∀ i : SlotId, sched.slots[i] = if takes i && !(late i) then
        (if (s.slot i).record.holdEdge = .absent then armedAs .armed (s.slot i).record.due (s.slot i)
        else armedAs .held 0#24 (s.slot i)) else s.slot i := fun i => by
      have hi : i ∈ allSlots := List.mem_finRange i
      obtain ⟨-, hslot, -⟩ := armTurn_effects g s i
      rw [hslots, if_pos hi, hslot, htakes]
    refine ⟨sched, ?_, hb, hslot, fun t => ?_⟩
    · rw [groupArmPass_eq_turns fun i ht hl => hrefuse i (htakes ▸ ht) (decide_eq_true hl), heq,
        foldl_report_eq_filter (fun i => (armTurn_effects g s i).1), htakes]
      rfl
    · have hjoins : ∀ i, (armTurn g s i).joinsList t = (takes i && !(late i) &&
          decide ((s.slot i).record.holdEdge = .absent ∧ (s.slot i).record.timebase = t)) := fun i => by
        obtain ⟨-, -, hjoins⟩ := armTurn_effects g s i
        rw [hjoins, htakes]
      simp only [hlists, hjoins]
      refine List.foldl_ext _ _ _ fun l i hi => ?_
      obtain ⟨-, hi⟩ := List.mem_filter.mp hi
      simp only [Bool.and_eq_true (_ && _), decide_eq_true_eq] at hi
      obtain ⟨htake, habsent, -⟩ := hi
      rw [hslot i, if_pos htake, if_pos habsent]
      rfl
  · intro n i j v atOnce b outer hb hki hti htj hlj hpj hkj hothers begun
    have hij : i ≠ j := by
      rintro rfl
      simp [hki] at hkj
    have hbegun : enterChain i s = begun := by
      rw [enterChain, updateBatch_eq, hb]
      rfl
    set armed := begun.setSlot j (armedAs .armed (s.slot j).record.due (s.slot j)) with harmed
    obtain ⟨-, haj, -, hfj⟩ := (armTakes_iff g s j).mp (htakes ▸ htj)
    have hmember : fire (n + 1) j (now j) true armed = entryFired j (now j) true .nothing armed := by
      refine fire_mark (by simpa [harmed, armedAs] using hkj) (fun b' hb' => ?_) n _ _
      obtain rfl : { b with chain := b.chain ++ [i] } = b' := by simpa [harmed, begun] using hb'
      simpa using ⟨(hfj b (by simp [hb])).2, Ne.symm hij⟩
    have hpassed : ∀ k, k ≠ j → armTakes g begun k = false := fun k hk => by
      rw [Bool.eq_false_iff, Ne, armTakes_chained hb, htakes]
      rintro ⟨ht, hki⟩
      simp [hothers k hki hk] at ht
    have hafter : ∀ k, k ≠ j → armTakes g (entryFired j (now j) true .nothing armed) k = false := fun k hk => by
      rw [← hpassed k hk]
      refine armTakes_congr g ?_ ((entryFired_ignoresWork j (now j) true .nothing).keeps armed).2
      rw [slot_entryFired, if_neg (Ne.symm hk), harmed, State.slot_setSlot_other _ _ _ _ (Ne.symm hk)]
    have hturn : armTakes g begun j = true := (armTakes_chained hb i j).mpr ⟨htakes ▸ htj, Ne.symm hij⟩
    have hpass : groupArmPass (fun j w u => fire (n + 1) j w true u) g begun = entryFired j (now j) true .nothing armed := by
      refine foldl_eq_single ?_ (fun k hk => ?_) (fun k hk => ?_) (List.nodup_finRange 32) (List.mem_finRange j)
      · rw [if_pos hturn, (armStep_fired (s := begun) haj (of_decide_eq_true hlj) hpj).2]
        exact hmember
      · rw [hpassed k hk]
        rfl
      · rw [hafter k hk]
        rfl
    rw [fire_succ, hbegun]
    simp only [fireAction, hki, hti, hpass]

end Sys2Proof.Arming
end

section
/-!
PROOFS. The line unit in a firing: what an action does to its line and answers (O49), and what PULSE_END and BATCH_FIRE make
of an arrival's pulse ends (O44).
-/
namespace Sys2Proof.Lines

open Sys2Proof.Machine Sys2Proof.Safety Sys2Proof.Timebases

/-! ### The line actions -/

theorem targetLine_eq {target : BitVec 3} {n : Fin 8} (h : target.toNat = n.val) : targetLine target = n := Fin.ext h

/-- A level action answers CUT when a pulse was in flight (R96). -/
theorem levelAnswer_eq (l : Line) : levelAnswer l = if l.pulse = none then .nothing else .cut := by
  unfold levelAnswer
  cases l.pulse <;> rfl

theorem oppositeLevel_eq (x : Level) : oppositeLevel x = if x = .low then .high else .low := by cases x <;> rfl

theorem fireLevel_eq (newLevel : Level → Level) {r : Record} {n : Fin 8} (h : r.target.toNat = n.val) (s : State) :
    fireLevel newLevel r s =
      (s.setLine n { s.line n with scheduled := newLevel (s.line n).scheduled, pulse := none },
        if (s.line n).pulse = none then .nothing else .cut) := by
  rw [fireLevel, targetLine_eq h, levelAnswer_eq]
  rfl

/-- A PULSE on a line with no pulse in flight starts one at the active level (R97). -/
theorem pulse_started {l : Line} (h : l.pulse = none) (p : Pulse) :
    pulseAction p l = { l with scheduled := activeLevel l, pulse := some p } ∧ pulseAnswer l = .nothing := by
  simp [pulseAction, pulseAnswer, h]

/-- Under RETRIGGER a PULSE replaces the pulse in flight and leaves the level (R98). -/
theorem pulse_retriggered {l : Line} (h : l.pulse ≠ none) (hp : l.pulsePolicy = .retrigger) (p : Pulse) :
    pulseAction p l = { l with pulse := some p } ∧ pulseAnswer l = .nothing := by
  obtain ⟨q, hq⟩ := Option.ne_none_iff_exists'.mp h
  simp [pulseAction, pulseAnswer, hq, hp]

/-- Under REFUSE the pulse in flight stays, and the PULSE is ABSORBED (R98). -/
theorem pulse_refused {l : Line} (h : l.pulse ≠ none) (hp : l.pulsePolicy = .refuse) (p : Pulse) :
    pulseAction p l = l ∧ pulseAnswer l = .absorbed := by
  obtain ⟨q, hq⟩ := Option.ne_none_iff_exists'.mp h
  simp [pulseAction, pulseAnswer, hq, hp]

theorem setLine_self (s : State) (n : Fin 8) : s.setLine n (s.line n) = s := by
  simp [State.setLine, State.setLines, State.line]

/-- A PULSE by what it does to the line and what it answers. -/
theorem firePulse_eq {r : Record} {n : Fin 8} (h : r.target.toNat = n.val) {v : Tick} {s : State} {l : Line} {a : Answer}
    (hl : pulseAction ⟨r.timebase, v + r.operand⟩ (s.line n) = l ∧ pulseAnswer (s.line n) = a) :
    firePulse r v s = (s.setLine n l, a) := by
  obtain ⟨hline, hanswer⟩ := hl
  rw [firePulse, targetLine_eq h, hline, hanswer]

/-- Settles O49, by the kind of the action, and for a PULSE by what it meets. -/
theorem lineActionsAndTheirAnswers : Obligations.LineActionsAndTheirAnswers := by
  intro g r v s n hn l answer active started
  refine ⟨fun hk => ?_, fun hk => ?_, fun hk => ?_, fun hk => ⟨fun hp => ?_, fun hp hpol => ?_, fun hp hpol => ?_⟩⟩ <;>
    simp only [fireAction, hk]
  · exact fireLevel_eq _ hn s
  · exact fireLevel_eq _ hn s
  · rw [fireLevel_eq _ hn, oppositeLevel_eq]
  · exact firePulse_eq hn (pulse_started hp _)
  · exact firePulse_eq hn (pulse_retriggered hp hpol _)
  · rw [firePulse_eq hn (pulse_refused hp hpol _), setLine_self]

/-! ### Pulse ends -/

/-- The line unit takes an arrival line by line (R99). -/
theorem endPulsesAt_eq (t : Timebase) (v : Tick) (s : State) :
    endPulsesAt t v s = { s with
      lines := s.lines.map fun l =>
        if l.pulse = some ⟨t, v⟩ then { l with scheduled := inactiveLevel l, pulse := none } else l } := by
  simp only [endPulsesAt, mapItems_eq_map, pulseEndsAt, decide_eq_true_eq]
  rfl

theorem takeLineNotice_some {s : State} {v : Tick} (h : s.notices.lines = some v) :
    takeLineNotice s = endPulsesAt .clock v (s.setNotices { s.notices with lines := none }) := by
  simp only [takeLineNotice, h]

/-! ### The work of BATCH_FIRE -/

theorem exec_pulseEnd (s : State) : exec .pulseEnd s = .next (takeLineNotice s) := rfl

theorem exec_batchFire_eq (s : State) :
    exec .batchFire s = .next (if s.sched.batches.isEmpty then s else takeBatchNotice s) := rfl

theorem exec_batchFire_idle {s : State} (h : s.sched.batches = []) : exec .batchFire s = .next s := by
  rw [exec_batchFire_eq, if_pos (List.isEmpty_iff.mpr h)]

/-- With a batch record held, BATCH_FIRE takes the pulse ends left and every batch (R68, R100). -/
theorem exec_batchFire_held {s : State} (h : s.sched.batches ≠ []) : exec .batchFire s = .next (takeBatchNotice s) := by
  rw [exec_batchFire_eq, if_neg (mt List.isEmpty_iff.mp h)]

theorem takeBatchNotice_batches (s : State) : (takeBatchNotice s).sched.batches = [] := finishBatches_batches _

theorem takeBatchNotice_lines (s : State) : (takeBatchNotice s).notices.lines = none := by
  rw [takeBatchNotice, finishBatches_notices, takeLineNotice_lines]

theorem takeBatchNotice_twice (s : State) : takeBatchNotice (takeBatchNotice s) = takeBatchNotice s := by
  conv_lhs => rw [takeBatchNotice, takeLineNotice_none (takeBatchNotice_lines s),
    finishBatches_none (takeBatchNotice_batches s)]

/-- The batch's part of the work drives no level: the pins belong to the arrival taken whole (R94, R107). -/
theorem drivenLevel_takeBatchNotice (s : State) (n : Fin 8) : drivenLevel (takeBatchNotice s) n = drivenLevel s n := by
  rw [drivenLevel, settle, takeBatchNotice_twice]
  rfl

theorem drivenLevel_batchFire {s t : State} (h : exec .batchFire s = .next t) (n : Fin 8) :
    drivenLevel t n = drivenLevel s n := by
  by_cases hb : s.sched.batches = []
  · cases (exec_batchFire_idle hb).symm.trans h
    rfl
  · cases (exec_batchFire_held hb).symm.trans h
    exact drivenLevel_takeBatchNotice s n

/-- Settles O44: the two commands are the line unit's and the batch's part of the work that `settle` finishes. -/
theorem pulseEndsOfAnArrival : Obligations.PulseEndsOfAnArrival := by
  intro s
  refine ⟨fun h => ?_, fun v h => ?_, exec_batchFire_idle, fun h => ?_, fun c hc t ht n => ?_, fun h n => ?_⟩
  · rw [exec_pulseEnd, takeLineNotice_none h]
  · rw [exec_pulseEnd, takeLineNotice_some h, endPulsesAt_eq]
    rfl
  · exact ⟨takeLineNotice s, takeBatchNotice s, exec_pulseEnd s, exec_batchFire_takeLineNotice s, exec_batchFire_held h,
      takeBatchNotice_batches s, takeBatchNotice_lines s⟩
  · simp only [List.mem_cons, List.not_mem_nil, or_false] at hc
    obtain rfl | rfl := hc
    · cases ht
      exact drivenLevel_takeLineNotice s n
    · exact drivenLevel_batchFire ht n
  · exact drivenLevel_of_settled h n

end Sys2Proof.Lines
end

section
/-!
PROOFS. The SAFE state and what it holds: the transitions that SAFE_N makes (O41), RELEASE_LINES and FLUSH_REPORTS at their
completions (O20), and the invariant that SAFE follows SAFE_N and the safe holds follow SAFE (O56), by induction over the moves
of a command.
-/
namespace Sys2Proof.Lines

open Sys2Proof.Machine Sys2Proof.Safety Sys2Proof.ActionTable Sys2Proof.Timebases

/-! ### The line records under the operations on all of them -/

theorem line_holdLines (s : State) (n : Fin 8) : (holdLines s).line n = { s.line n with safeHold := true } :=
  mapItems_getElem _ _ _ _

theorem line_releaseHolds (s : State) (n : Fin 8) : (releaseHolds s).line n = { s.line n with safeHold := false } :=
  mapItems_getElem _ _ _ _

theorem line_engineReset (s : State) (n : Fin 8) :
    (engineReset s).line n = engineResetLine (safeAfterReset s.inputs) (s.line n) := mapItems_getElem _ _ _ _

theorem line_enterActive (s : State) (n : Fin 8) : (enterActive s).line n = { s.line n with safeHold := true } :=
  line_holdLines _ n

theorem line_powerOn (ins : Vector Level 4) (safeN : Level) (pending : List Instr) (n : Fin 8) :
    ({ State.powerOn ins safeN with pending := pending } : State).line n = Line.initial (safeN == .low) := by
  simp [State.line, State.powerOn]

/-! ### The SAFE transitions -/

/-- The SAFE source is never disabled, so its cause is always recorded (R116, R166). -/
theorem notifyCause_safe (n : NotifyUnit) : notifyCause .safe n = { n with flags := n.flags.set 1 true } := rfl

theorem interruptIntervals_eq (s : State) :
    interruptIntervals s = { s with meas := { s.meas with channels := s.meas.channels.map fun ch =>
      if ch.state = .timing then { ch with state := .waitStart } else ch } } := by
  have hmap := map_interrupt_if True s.meas.channels
  simp only [true_and, if_true] at hmap
  rw [interruptIntervals, mapItems_eq_map, hmap]
  rfl

/-- Entry into ACTIVE, block by block (R105, R115, R116). -/
theorem enterActive_eq (s : State) :
    enterActive s = { s with
      inputs := { s.inputs with safe := .active }
      lines := s.lines.map fun l => { l with safeHold := true }
      meas := { s.meas with channels := s.meas.channels.map fun ch =>
        if ch.state = .timing then { ch with state := .waitStart } else ch }
      notify := { s.notify with flags := s.notify.flags.set 1 true } } := by
  rw [enterActive, raiseSource_notify, notifyCause_safe, interruptIntervals_eq, holdLines, mapItems_eq_map]
  rfl

theorem safeAsserted_of_low {s : State} (h : s.inputs.safeN = .low) : safeAsserted s = s := if_pos h

theorem safeReleased_of_high {s : State} (h : s.inputs.safeN = .high) : safeReleased s = s := if_pos h

/-- With SAFE_N released a sound SAFE state is RUN or CLEARED, and both go to ACTIVE (R114). -/
theorem safeAsserted_of_high {s : State} (hs : SafeStateSound s) (h : s.inputs.safeN = .high) :
    safeAsserted s = enterActive (s.setInputs { s.inputs with safeN := .low }) := by
  have hnot : s.inputs.safe ≠ .active := fun ha => by simp [hs.1.mp ha] at h
  unfold safeAsserted
  rw [if_neg (by simp [h])]
  dsimp only
  split
  case h_1 | h_2 => rfl
  case h_3 ha => exact absurd ha hnot

/-- With SAFE_N asserted a sound SAFE state is ACTIVE, and goes to CLEARED (R114, R117). -/
theorem safeReleased_of_low {s : State} (hs : SafeStateSound s) (h : s.inputs.safeN = .low) :
    safeReleased s = s.setInputs { s.inputs with safeN := .high, safe := .cleared } := by
  have hactive : s.inputs.safe = .active := hs.1.mpr h
  unfold safeReleased
  rw [if_neg (by simp [h]), hactive]

/-- Settles O41, by the level of SAFE_N that was seen last. -/
theorem safeTransitionsFollowThePin : Obligations.SafeTransitionsFollowThePin := by
  intro s hs hsound
  have hassert : exec .safeAssertion s = .next (safeAsserted s) := taken_of_settled hs
  have hrelease : exec .safeRelease s = .next (safeReleased s) := taken_of_settled hs
  rw [hassert, hrelease]
  refine ⟨fun h => ⟨?_, ?_⟩, fun h => ⟨?_, ?_⟩⟩
  · rw [safeAsserted_of_high hsound h, enterActive_eq]
    rfl
  · rw [safeReleased_of_high h]
  · rw [safeReleased_of_low hsound h]
    rfl
  · rw [safeAsserted_of_low h]

/-! ### The invariant -/

/-- What changes neither SAFE_N nor SAFE nor a safe hold keeps the SAFE state sound. -/
theorem safeStateSound_of_frame {s t : State} (hsafe : t.inputs.safe = s.inputs.safe) (hpin : t.inputs.safeN = s.inputs.safeN)
    (hhold : ∀ n, (t.line n).safeHold = (s.line n).safeHold) (hs : SafeStateSound s) : SafeStateSound t := by
  simpa only [SafeStateSound, hsafe, hpin, hhold] using hs

theorem change_keeps_safeHold {s t : State} (h : Change s t) (n : Fin 8) :
    (t.line n).safeHold = (s.line n).safeHold := by
  cases h with
  | lines v hv => exact hv n
  | _ => rfl

/-- No access reaches a safe hold: the forces, the line items and the actions leave it alone (R95, R104). -/
theorem access_keeps_safeHold {s t : State} (h : Access s t) (n : Fin 8) :
    (t.line n).safeHold = (s.line n).safeHold := by
  cases h with
  | change hc => exact change_keeps_safeHold hc n
  | enables w => unfold writeEnables; dsimp only; split <;> rfl
  | _ => rfl

theorem access_keeps_safeStateSound {s t : State} (h : Access s t) (hs : SafeStateSound s) : SafeStateSound t := by
  obtain ⟨-, hsafe, hpin⟩ := h.pending_safe
  exact safeStateSound_of_frame hsafe hpin (access_keeps_safeHold h) hs

theorem safeAsserted_keeps_safeStateSound {s : State} (hs : SafeStateSound s) : SafeStateSound (safeAsserted s) := by
  cases h : s.inputs.safeN with
  | low => rwa [safeAsserted_of_low h]
  | high =>
    rw [safeAsserted_of_high hs h]
    exact ⟨iff_of_true rfl rfl, fun n => by rw [line_enterActive]; rfl⟩

theorem safeReleased_keeps_safeStateSound {s : State} (hs : SafeStateSound s) : SafeStateSound (safeReleased s) := by
  cases h : s.inputs.safeN with
  | high => rwa [safeReleased_of_high h]
  | low =>
    have hactive : s.inputs.safe = .active := hs.1.mpr h
    rw [safeReleased_of_low hs h]
    exact ⟨by simp, fun n => (hs.2 n).trans (by simp [hactive])⟩

/-- In CLEARED SAFE_N is released, so RUN follows it, and no hold is left (R106, R114). -/
theorem releaseHolds_keeps_safeStateSound {s : State} (hcleared : s.inputs.safe = .cleared) (hs : SafeStateSound s) :
    SafeStateSound (releaseHolds (s.setInputs { s.inputs with safe := .run })) := by
  have hpin : s.inputs.safeN ≠ .low := fun h => by simp [hs.1.mpr h] at hcleared
  exact ⟨iff_of_false (by simp [releaseHolds]) hpin, fun n => by rw [line_releaseHolds]; rfl⟩

/-- ENGINE_RESET leaves a sound SAFE state as it is and sets the holds by it (R109, R123). -/
theorem engineReset_keeps_safeStateSound {s : State} (hs : SafeStateSound s) : SafeStateSound (engineReset s) := by
  have hkept : (engineReset s).inputs.safe = s.inputs.safe := safeAfterReset_of_sound hs.1
  refine ⟨?_, fun n => ?_⟩
  · rw [hkept]
    exact hs.1
  · rw [line_engineReset]
    rfl

theorem move_keeps_safeStateSound {s t : State} (h : Move s t) (hs : SafeStateSound s) : SafeStateSound t := by
  cases h with
  | access ha => exact access_keeps_safeStateSound ha hs
  | safeAsserted => exact safeAsserted_keeps_safeStateSound hs
  | safeReleased => exact safeReleased_keeps_safeStateSound hs
  | released hcleared => exact releaseHolds_keeps_safeStateSound hcleared hs
  | engineReset => exact engineReset_keeps_safeStateSound hs

/-- Power-on takes the SAFE state and the holds from the level sampled on SAFE_N (R108, R122). -/
theorem safeStateSound_powerOn (ins : Vector Level 4) (safeN : Level) (s : State) :
    SafeStateSound { State.powerOn ins safeN with pending := s.pending } := by
  refine ⟨?_, fun n => ?_⟩
  · cases safeN <;> simp [State.powerOn]
  · rw [line_powerOn]
    cases safeN <;> rfl

/-- Settles O56, by induction over the moves of the command that the step takes. -/
theorem safeHoldsFollowTheSafeState : Obligations.SafeHoldsFollowTheSafeState := fun _ _ hs h =>
  step_keeps (fun _ _ => move_keeps_safeStateSound) safeStateSound_powerOn (fun _ _ hs => hs) h hs

/-! ### FLUSH_REPORTS and RELEASE_LINES -/

theorem releaseLinesWork_of_active {s : State} (h : s.inputs.safe = .active) (rec : CommandRecord) :
    releaseLinesWork rec s = finishCommand rec .badState rec.argument s := by
  rw [releaseLinesWork, h]

theorem releaseLinesWork_of_run {s : State} (h : s.inputs.safe = .run) (rec : CommandRecord) :
    releaseLinesWork rec s = finishCommand rec .ok rec.argument s := by
  rw [releaseLinesWork, h]

theorem releaseLinesWork_of_cleared {s : State} (h : s.inputs.safe = .cleared) (rec : CommandRecord) :
    releaseLinesWork rec s =
      finishCommand rec .ok rec.argument (releaseHolds (s.setInputs { s.inputs with safe := .run })) := by
  rw [releaseLinesWork, h]

/-- Settles O20: FLUSH_REPORTS by its one effect, RELEASE_LINES by the SAFE state it finds. -/
theorem flushAndReleaseCompletions : Obligations.FlushAndReleaseCompletions := by
  intro s a hs
  refine ⟨fun he => ?_, fun he => ?_⟩
  · have hwork : exec .flushReportsCompletion s = .next (flushReportsWork ⟨.flushReports, a⟩ s) := taken_workIf hs he
    rw [hwork, flushReportsWork, finishCommand_eq]
    rfl
  · have hwork : exec .releaseLinesCompletion s = .next (releaseLinesWork ⟨.releaseLines, a⟩ s) := taken_workIf hs he
    rw [hwork]
    refine ⟨fun h => ?_, fun h => ?_, fun h => ?_⟩
    · rw [releaseLinesWork_of_cleared h, finishCommand_eq, releaseHolds, mapItems_eq_map]
      rfl
    · rw [releaseLinesWork_of_active h, finishCommand_eq]
      rfl
    · rw [releaseLinesWork_of_run h, finishCommand_eq]
      rfl

end Sys2Proof.Lines
end

section
/-!
PROOFS. The host's writes of the line unit: the forces of LINE_FORCE, their readback and the pins (O26), and a line's
configuration item (O31).
-/
namespace Sys2Proof.Lines

open Sys2Proof.Machine Sys2Proof.Safety Sys2Proof.ActionTable Sys2Proof.Timebases

/-! ### LINE_FORCE -/

/-- Line n's field of LINE_FORCE is the n-th digit of the word in base 4 (R200). -/
theorem toNat_extractLsb'_pair (w : Word) (n : Nat) : (w.extractLsb' (2 * n) 2).toNat = w.toNat / 4 ^ n % 4 := by
  rw [BitVec.extractLsb'_toNat, Nat.shiftRight_eq_div_pow, Nat.pow_mul]

/-- The force that a two-bit code leaves, as the number it is: code 3 keeps the force (R104). -/
theorem forceOfCode_eq {b : BitVec 2} {k : Nat} (h : b.toNat = k) (old : Force) :
    forceOfCode b old = if k = 0 then .released else if k = 1 then .low else if k = 2 then .high else old := by
  subst h
  simp only [forceOfCode, ← BitVec.toNat_inj, BitVec.toNat_ofNat]

theorem line_writeForce (w : Word) (s : State) (n : Fin 8) :
    (writeForce w s).line n = { s.line n with force := forceOfCode (w.extractLsb' (2 * n.val) 2) (s.line n).force } := by
  simp [writeForce, State.line]

theorem extractLsb'_lineForceWord (lines : Vector Line 8) (n : Fin 8) :
    (lineForceWord lines).extractLsb' (2 * n.val) 2 = forceCode lines[n].force := by
  apply BitVec.eq_of_getLsbD_eq
  intro i hi
  have hn := n.isLt
  rw [BitVec.getLsbD_extractLsb', lineForceWord, BitVec.getLsbD_ofFnLE, dif_pos (by omega)]
  have hdiv : (2 * n.val + i) / 2 = n.val := by omega
  have hmod : (2 * n.val + i) % 2 = i := by omega
  simp only [hdiv, hmod, hi, decide_true, Bool.true_and]
  rfl

theorem settledWord_lineForce (s : State) : settledWord 0x18#5 s = lineForceWord s.lines := rfl

/-- Settles O26: the word by its base-4 digits, the readback field by field, the pins by the line records written. -/
theorem lineForceWriteSetsForces : Obligations.LineForceWriteSetsForces := by
  intro w s hs
  have hwrite : exec (.lineForceWrite w) s = .next (writeForce w s) := taken_of_settled hs
  have hline : ∀ n : Fin 8, (writeForce w s).lines[n] = (writeForce w s).line n := fun _ => rfl
  refine ⟨(writeForce w s).lines, hwrite, fun n => ?_, fun n => ?_, rfl, fun n => ?_⟩
  · rw [hline, line_writeForce, forceOfCode_eq (toNat_extractLsb'_pair w n)]
    split_ifs <;> simp [*]
  · rw [registerWord_of_settled hs, settledWord_lineForce, ← toNat_extractLsb'_pair, extractLsb'_lineForceWord]
    change (forceCode (s.line n).force).toNat = _
    cases (s.line n).force <;> rfl
  · rw [hline, pinLevel]
    cases ((writeForce w s).line n).force <;> simp [line_writeForce]

/-! ### The configuration item of a line -/

/-- Settles O31: item 0x08+n is line n's, and its write is the statement's record. -/
theorem lineConfigurationWriteSetsThreeFields : Obligations.LineConfigurationWriteSetsThreeFields := by
  intro w n s hs hindex
  have hi : s.window.cfgIndex = BitVec.ofNat 8 (0x08 + n.val) :=
    BitVec.eq_of_toNat_eq (by rw [hindex, BitVec.toNat_ofNat]; omega)
  exact taken_cfgDataWrite hs hi (cfgItemOfIndex_line n) w

end Sys2Proof.Lines
end

section
/-!
PROOFS. Edges that meet no consumer, and the claims between the steps of a dispatch (O37). Each step of a dispatch leaves alone
what the edge does not match, and each claim is the work of the command of its name.
-/
namespace Sys2Proof.Inputs

open Sys2Proof.Machine Sys2Proof.Safety Sys2Proof.ActionTable Sys2Proof.Timebases Sys2Proof.Arming

section

variable {line : Fin 4} {level : Level} {s : State}

/-! ### Levels seen that are not dispatched -/

/-- A level seen with no change is no edge (R110). -/
theorem inputSeen_unchanged (h : s.inputs.last[line] = level) (c₁ c₂ : List Claim) :
    inputSeen line level c₁ c₂ s = s := if_pos h

/-- While SAFE is ACTIVE an edge is not dispatched (R113). -/
theorem inputSeen_active (hlevel : s.inputs.last[line] ≠ level) (hsafe : s.inputs.safe = .active) (c₁ c₂ : List Claim) :
    inputSeen line level c₁ c₂ s = setLastLevel line level s := by
  have hlast : lastLevel s line ≠ level := hlevel
  rw [inputSeen, if_neg hlast, if_pos hsafe]

/-! ### The steps of a dispatch that meet nothing -/

theorem not_selected_of_line {sel : EdgeSelection} (h : sel.on = true → sel.line ≠ line) : ¬Selected sel line level :=
  fun ⟨hon, hline, _⟩ => h hon hline

/-- An edge of no selection's line has no first step (R33). -/
theorem edgeTimebase_unselected (hclear : s.tb.clearSelection.on = true → s.tb.clearSelection.line ≠ line)
    (hcount : s.tb.countSelection.on = true → s.tb.countSelection.line ≠ line) :
    edgeTimebase line (edgeOf level) s = s := by
  obtain ⟨-, -, hneither⟩ := edgeTimebase_eq line level s
  exact hneither (not_selected_of_line hclear) fun h => absurd h (not_selected_of_line hcount)

/-- An edge of no held entry's line has no second step (R58). -/
theorem releaseHeld_unheld (h : ∀ i, (s.slot i).state = .held → (s.slot i).record.holdLine ≠ line) (level : Level) :
    releaseHeld line (edgeOf level) s = s :=
  List.foldlRecOn (motive := fun u => u = s) _ _ rfl fun u hu i _ => by
    rw [hu, if_neg]
    intro hr
    obtain ⟨hheld, hline, -⟩ := (edgeReleases_iff ..).mp hr
    exact h i hheld hline

theorem takeClaims_nil (s : State) : takeClaims [] s = s := rfl

/-- An edge that no consumer meets changes the last level alone, whatever the SAFE state (R110 to R113). -/
theorem inputSeen_unmet (hlevel : s.inputs.last[line] ≠ level)
    (hclear : s.tb.clearSelection.on = true → s.tb.clearSelection.line ≠ line)
    (hcount : s.tb.countSelection.on = true → s.tb.countSelection.line ≠ line)
    (hheld : ∀ i, (s.slot i).state = .held → (s.slot i).record.holdLine ≠ line)
    (hopen : ∀ c, (s.channel c).state ≠ .off → (s.channel c).latched.setup.input ≠ line) :
    inputSeen line level [] [] s = setLastLevel line level s := by
  have hlast : lastLevel s line ≠ level := hlevel
  by_cases hsafe : s.inputs.safe = .active
  · exact inputSeen_active hlevel hsafe [] []
  · have hfirst : edgeTimebase line (edgeOf level) (setLastLevel line level s) = setLastLevel line level s :=
      edgeTimebase_unselected (s := setLastLevel line level s) hclear hcount
    have hsecond : releaseHeld line (edgeOf level) (setLastLevel line level s) = setLastLevel line level s :=
      releaseHeld_unheld (s := setLastLevel line level s) hheld level
    rw [inputSeen, if_neg hlast, if_neg hsafe, edgeTo_eq, dispatchEdge, takeClaims_nil, takeClaims_nil,
      hfirst, hsecond, channelsEdge_eq]
    exact channelsMet_idle (s := setLastLevel line level s) hopen level _

/-! ### Claims -/

theorem exec_completionRow (c : CommandCode) (s : State) : exec (completionRow c) s = taken (workIf c) s := by
  cases c <;> rfl

/-- With no command in progress there is no step to take. -/
theorem commandStep_idle (h : s.window.engine = none) : takeClaim .commandStep s = s := by
  simp only [takeClaim, commandStepInside, h]

/-- Every command but ENGINE_RESET and RELEASE_LINES takes its next step inside a dispatch (R112, R119, R192). -/
theorem commandStep_of_engine {rec : CommandRecord} (h : s.window.engine = some rec) :
    takeClaim .commandStep s =
      if jobCode rec.job = .engineReset ∨ jobCode rec.job = .releaseLines then s else commandWork rec s := by
  obtain ⟨job, argument⟩ := rec
  simp only [takeClaim, commandStepInside, h]
  cases job <;> rfl

/-- A read with no side effect puts the register's word on the data lines (R182, R183). -/
theorem windowRead_plain {a : BitVec 5} (h : a ∉ [0x0E#5, 0x10#5, 0x12#5, 0x17#5, 0x1B#5, 0x1D#5]) (s : State) :
    windowRead a s = { s with readWord := registerWord a s } := by
  simp only [List.mem_cons, List.not_mem_nil, or_false, not_or] at h
  obtain ⟨hclock, hedge, hstep, hcfg, hreport, hclaim⟩ := h
  have ha : a ∉ [0x0E#5, 0x10#5, 0x12#5, 0x1B#5, 0x1D#5] := by simp [hclock, hedge, hstep, hreport, hclaim]
  exact readEffect_eq_self ha fun hc => absurd hc hcfg

end

/-- Settles O37: the levels that are not dispatched, the dispatch whose steps meet nothing, and each claim as the work of its
command on a settled state. -/
theorem edgesWithoutConsumersAndClaims : Obligations.EdgesWithoutConsumersAndClaims := by
  intro line level c₁ c₂ s hs
  have hseen : ∀ {c₁ c₂ t}, inputSeen line level c₁ c₂ s = t → exec (.inputEdge line level c₁ c₂) s = .next t :=
    fun h => (taken_of_settled hs).trans (congrArg _ h)
  refine ⟨fun h => hseen (inputSeen_unchanged h c₁ c₂), fun hlevel hsafe => hseen (inputSeen_active hlevel hsafe c₁ c₂),
    fun hlevel hclear hcount hheld hopen => hseen (inputSeen_unmet hlevel hclear hcount hheld hopen),
    fun a w => taken_of_settled hs, fun t => ?_, ⟨taken_of_settled hs, taken_of_settled hs, taken_of_settled hs⟩,
    fun a ha => windowRead_plain ha s, ?_, commandStep_idle, fun rec hrec => ?_⟩
  · rw [← tbHiAddress_eq]
    exact taken_of_settled hs
  · exact ⟨clockPeriod s, takeStallNotice (clockPeriod s), taken_of_settled hs, rfl, rfl, rfl⟩
  · rw [commandStep_of_engine hrec]
    split
    · rfl
    · rw [exec_completionRow, taken_of_settled hs, workIf_of_engine hrec]

end Sys2Proof.Inputs
end

section
/-!
PROOFS. The measurement channels: the two host commands that open and close one (O19), the writes of a channel's items (O32),
the third step of an edge's dispatch (O40), the stall checks of an arrival (O45) and the arithmetic of a MEAS record (O48).
-/
namespace Sys2Proof.Channels

open Sys2Proof.Machine Sys2Proof.Safety Sys2Proof.ActionTable Sys2Proof.Timebases Sys2Proof.Inputs

/-! ### The arithmetic of a MEAS record -/

/-- A rounded division by its quotient and its remainder (R138). -/
theorem roundDivide_eq (mode : Rounding) (x d : Nat) :
    roundDivide mode x d =
      match mode with
      | .trunc => x / d
      | .halfUp => if 2 * (x - x / d * d) ≥ d then x / d + 1 else x / d
      | .halfEven =>
        if 2 * (x - x / d * d) > d ∨ (2 * (x - x / d * d) = d ∧ x / d % 2 = 1) then x / d + 1 else x / d := by
  rw [← Nat.mod_eq_sub_div_mul]
  cases mode <;> rfl

theorem isLimited_eq (x : Nat) : isLimited x = decide (65535 < x) := rfl

/-- LIMITED counts the mean, and the extremes where they are reported (R139, R140). -/
theorem windowLimited_eq (ch : Channel) :
    windowLimited ch = decide (65535 < windowMean ch ∨
      (ch.latched.setup.extremes = true ∧ (65535 < scaledExtreme ch ch.min ∨ 65535 < scaledExtreme ch ch.max))) := by
  simp [windowLimited, isLimited_eq]

/-- Settles O48: the record's three values are rounded divisions of the window. -/
theorem meanAndExtremesAreRoundedAndLimited : Obligations.MeanAndExtremesAreRoundedAndLimited := by
  intro c ch u rounded mean lo hi ext
  have hrounded : ∀ x d, roundDivide ch.latched.setup.rounding x d = rounded x d := fun x d => roundDivide_eq _ x d
  have hmean : windowMean ch = mean := hrounded _ _
  have hlo : scaledExtreme ch ch.min = lo := hrounded _ _
  have hhi : scaledExtreme ch ch.max = hi := hrounded _ _
  rw [measReport, windowLimited_eq, hmean, hlo, hhi]
  rfl

/-! ### MEAS_START and MEAS_STOP -/

/-- A channel that is OFF opens with its items latched and an empty window (R126, R127). -/
theorem openChannel_off {c : Fin 4} {s : State} (h : (s.channel c).state = .off) :
    openChannel c s =
      s.setChannel c (clearWindow { s.channel c with state := .waitStart, latched := latchItems (s.channelItems c) }) :=
  if_pos h

/-- A channel that is open closes with a CLOSED record of its window count (R128, R143). -/
theorem closeChannel_open {c : Fin 4} {s : State} (h : (s.channel c).state ≠ .off) :
    closeChannel c s =
      handChannelReport c (.closed c (BitVec.ofNat 16 (s.channel c).count))
        (s.setChannel c (clearWindow { s.channel c with state := .off })) :=
  if_neg h

/-- MEAS_START by whether its channel is OFF (R127). -/
theorem measStartWork_eq {a : Byte} {c : Fin 4} (ha : a.toNat = c.val) (s : State) :
    measStartWork ⟨.measStart, a⟩ s =
      if (s.channel c).state = .off then afterCompletion .ok 0x9#4 a (openChannel c s)
      else afterCompletion .badState 0x9#4 a s := by
  simp only [measStartWork, argumentChannel_eq ha, finishCommand_eq]
  rfl

/-- MEAS_STOP by whether its channel is OFF (R128). -/
theorem measStopWork_eq {a : Byte} {c : Fin 4} (ha : a.toNat = c.val) (s : State) :
    measStopWork ⟨.measStop, a⟩ s =
      if (s.channel c).state = .off then afterCompletion .badState 0xA#4 a s
      else afterCompletion .ok 0xA#4 a (closeChannel c s) := by
  simp only [measStopWork, argumentChannel_eq ha, finishCommand_eq]
  rfl

/-- Settles O19: each command by whether its channel is OFF. -/
theorem measCommandCompletions : Obligations.MeasCommandCompletions := by
  intro s a c hs ha ch items
  refine ⟨fun he => ?_, fun he => ?_⟩
  · have hwork : exec .measStartCompletion s = .next (measStartWork ⟨.measStart, a⟩ s) := taken_workIf hs he
    rw [hwork, measStartWork_eq ha]
    refine ⟨fun h => ?_, fun h => ?_⟩
    · rw [if_pos h, openChannel_off h]
      rfl
    · rw [if_neg h]
  · have hwork : exec .measStopCompletion s = .next (measStopWork ⟨.measStop, a⟩ s) := taken_workIf hs he
    rw [hwork, measStopWork_eq ha]
    refine ⟨fun h => ?_, fun h => ?_⟩
    · rw [if_neg h, closeChannel_open h]
      rfl
    · rw [if_pos h]

/-! ### The items of a channel -/

/-- A field of a word is the number its place gives it. -/
theorem toNat_extractLsb'_eq (w : Word) (j n : Nat) : (w.extractLsb' j n).toNat = w.toNat / 2 ^ j % 2 ^ n := by
  rw [BitVec.extractLsb'_toNat, Nat.shiftRight_eq_div_pow]

theorem modeOfCode_eq : ∀ b : BitVec 2,
    modeOfCode b =
      match b.toNat with
      | 0 => .periodRise
      | 1 => .periodFall
      | 2 => .high
      | _ => .low := by decide

/-- Code 3 stores TRUNC (R125). -/
theorem roundingOfCode_eq : ∀ b : BitVec 2,
    roundingOfCode b =
      match b.toNat with
      | 1 => .halfUp
      | 2 => .halfEven
      | _ => .trunc := by decide

/-- The set-up that a written word stores, field by field (R125, R198). -/
theorem setupOfWord_eq (w : Word) :
    setupOfWord w =
      { input := Fin.ofNat 4 w.toNat
        mode :=
          match w.toNat / 4 % 4 with
          | 0 => .periodRise
          | 1 => .periodFall
          | 2 => .high
          | _ => .low
        windowExponent := Fin.ofNat 9 (min (w.toNat / 16 % 16) 8)
        unitShift := Fin.ofNat 9 (min (w.toNat / 256 % 16) 8)
        rounding :=
          match w.toNat / 4096 % 4 with
          | 1 => .halfUp
          | 2 => .halfEven
          | _ => .trunc
        extremes := w.getLsbD 14 } := by
  have hinput : (w.extractLsb' 0 2).toFin = Fin.ofNat 4 w.toNat := by
    apply Fin.ext
    rw [BitVec.val_toFin, toNat_extractLsb'_eq, pow_zero, Nat.div_one]
    rfl
  simp only [setupOfWord, exponentOfCode, hinput, modeOfCode_eq, roundingOfCode_eq, toNat_extractLsb'_eq]
  rfl

/-- Settles O32: each index names its item of the channel. -/
theorem channelItemWrites : Obligations.ChannelItemWrites := by
  intro w c s hs
  obtain ⟨hsetup, htimeoutHi, htimeoutLo, hstatus⟩ := cfgItemOfIndex_channel c
  have hindex : ∀ {n : Nat}, s.window.cfgIndex.toNat = n → s.window.cfgIndex = BitVec.ofNat 8 n := by
    rintro n rfl
    rw [BitVec.ofNat_toNat, BitVec.setWidth_eq]
  refine ⟨fun h => ?_, fun h => taken_cfgDataWrite hs (hindex h) htimeoutHi w,
    fun h => taken_cfgDataWrite hs (hindex h) htimeoutLo w, fun h => taken_cfgDataWrite hs (hindex h) hstatus w⟩
  refine (taken_cfgDataWrite hs (hindex h) hsetup w).trans (congrArg _ ?_)
  rw [writeCfgItem, setupOfWord_eq]
  rfl

/-! ### The third step of a dispatch -/

/-- While TB0 is disabled no channel accepts an edge (R130). -/
theorem channelsMet_disabled {s : State} (h : s.tb.enables.clock = false) (line : Fin 4) (level : Level)
    (l : List (Fin 4)) : l.foldl (channelMet line level) s = s :=
  List.foldlRecOn (motive := fun u => u = s) _ _ rfl fun u hu c _ => by
    rw [hu, channelMet]
    exact if_neg fun hm => by simp [h] at hm

/-- An edge of no selection's line and no held entry's line is its third step (R111). -/
theorem exec_inputEdge_thirdStep {line : Fin 4} {level : Level} {s : State} (hs : Settled s)
    (hlevel : s.inputs.last[line] ≠ level) (hsafe : s.inputs.safe ≠ .active)
    (hclear : s.tb.clearSelection.on = true → s.tb.clearSelection.line ≠ line)
    (hcount : s.tb.countSelection.on = true → s.tb.countSelection.line ≠ line)
    (hheld : ∀ i, (s.slot i).state = .held → (s.slot i).record.holdLine ≠ line) :
    exec (.inputEdge line level [] []) s =
      .next (([0, 1, 2, 3] : List (Fin 4)).foldl (channelMet line level) (setLastLevel line level s)) := by
  have hfirst : edgeTimebase line (edgeOf level) (setLastLevel line level s) = setLastLevel line level s :=
    edgeTimebase_unselected (s := setLastLevel line level s) hclear hcount
  have hsecond : releaseHeld line (edgeOf level) (setLastLevel line level s) = setLastLevel line level s :=
    releaseHeld_unheld (s := setLastLevel line level s) hheld level
  rw [exec_inputEdge hs hlevel hsafe, takeClaims_nil, takeClaims_nil, hfirst, hsecond]

/-- Settles O40: the third step is the statement's fold, and the other two steps meet nothing. -/
theorem edgeTimesAnInterval : Obligations.EdgeTimesAnInterval := by
  refine ⟨fun line level s => ⟨channelsEdge_eq line level s, fun h => ?_⟩, ?_⟩
  · rw [channelsEdge_eq, channelsMet_disabled h]
  · intro line level s hs hlevel hsafe hclear hcount hheld s'
    have hexec := exec_inputEdge_thirdStep hs hlevel hsafe hclear hcount hheld
    have hdisabled := channelsMet_disabled (s := setLastLevel line level s) (line := line) (level := level)
    exact ⟨hexec, fun h => hexec.trans (congrArg _ (hdisabled h _))⟩

/-! ### The stall checks -/

/-- The queue and the notification controller after a channel has stalled (R134, R143). -/
def stallHanded (qn : ReportQueue × NotifyUnit) (c : Fin 4) : ReportQueue × NotifyUnit :=
  handed (.stall c) (qn.1, caused (.mc c) qn.2)

/-- A channel that stalls goes back to WAIT_START and hands its record after its source (R134, R143). -/
theorem stallChannel_stalls {v : Tick} {c : Fin 4} {s : State} (h : intervalStalls v (s.channel c) = true) :
    stallChannel v c s =
      { s.setChannel c { s.channel c with state := .waitStart } with
        queue := (stallHanded (s.queue, s.notify) c).1
        notify := (stallHanded (s.queue, s.notify) c).2 } := by
  rw [stallChannel, if_pos h, handChannelReport, handReport_eq, raiseSource_notify, notifyCause_eq]
  rfl

theorem stallChannel_unstalled {v : Tick} {c : Fin 4} {s : State} (h : intervalStalls v (s.channel c) = false) :
    stallChannel v c s = s := by
  rw [stallChannel, h, if_neg Bool.false_ne_true]

/-- The check of one channel leaves the others as they were. -/
theorem channel_stallChannel_other {c d : Fin 4} (h : c ≠ d) (v : Tick) (s : State) :
    (stallChannel v c s).channel d = s.channel d := by
  cases hst : intervalStalls v (s.channel c) with
  | false => rw [stallChannel_unstalled hst]
  | true =>
    rw [stallChannel_stalls hst]
    exact (State.channel_setChannel s c d _).trans (if_neg h)

/-- The stall checks of several channels: those that stall go back to WAIT_START, with their records and sources in the order
of the checks, and nothing else changes (R134, R136). -/
theorem stallChannels_eq (v : Tick) {l : List (Fin 4)} (hl : l.Nodup) (s : State) :
    ∃ channels : Vector Channel 4,
      l.foldl (fun s c => stallChannel v c s) s =
        { s with
          meas := { s.meas with channels := channels }
          queue := ((l.filter fun c => intervalStalls v (s.channel c)).foldl stallHanded (s.queue, s.notify)).1
          notify := ((l.filter fun c => intervalStalls v (s.channel c)).foldl stallHanded (s.queue, s.notify)).2 } ∧
      ∀ d : Fin 4, channels[d] =
        if d ∈ l ∧ intervalStalls v (s.channel d) = true then { s.channel d with state := .waitStart } else s.channel d := by
  induction l generalizing s with
  | nil => exact ⟨s.meas.channels, rfl, fun d => by simp [State.channel]⟩
  | cons c rest ih =>
    obtain ⟨hc, hrest⟩ := List.nodup_cons.mp hl
    obtain ⟨channels, heq, hchannels⟩ := ih hrest (stallChannel v c s)
    have hfilter : (rest.filter fun d => intervalStalls v ((stallChannel v c s).channel d)) =
        rest.filter fun d => intervalStalls v (s.channel d) :=
      List.filter_congr fun d hd => by
        have hcd : c ≠ d := fun h => hc (h ▸ hd)
        rw [channel_stallChannel_other hcd]
    rw [hfilter] at heq
    refine ⟨channels, ?_, fun d => ?_⟩
    · rw [List.foldl_cons, heq, List.filter_cons]
      cases hst : intervalStalls v (s.channel c) with
      | false => rw [stallChannel_unstalled hst, if_neg Bool.false_ne_true]
      | true =>
        rw [stallChannel_stalls hst, if_pos rfl]
        rfl
    · rw [hchannels]
      by_cases hd : c = d
      · subst hd
        cases hst : intervalStalls v (s.channel c) with
        | false => simp [hc, stallChannel_unstalled hst]
        | true => simp [hc, stallChannel_stalls hst, State.channel, State.setChannel]
      · rw [channel_stallChannel_other hd]
        simp [Ne.symm hd]

/-- Settles O45: the checks of all four channels, each of the channel as the arrival left it. -/
theorem stallGivesUpLongIntervals : Obligations.StallGivesUpLongIntervals := by
  intro s
  have hexec : exec .stall s = .next (takeStallNotice s) := rfl
  refine ⟨fun h => hexec.trans (congrArg _ (takeStallNotice_none h)), ?_⟩
  intro v hv stalls stalled
  obtain ⟨channels, heq, hchannels⟩ :=
    stallChannels_eq v (List.nodup_finRange 4) (s.setNotices { s.notices with stalls := none })
  have hmap : channels = s.meas.channels.mapFinIdx fun c ch h =>
      if stalls ⟨c, h⟩ then { ch with state := .waitStart } else ch := by
    apply Vector.ext
    intro c h
    rw [Vector.getElem_mapFinIdx]
    refine (hchannels ⟨c, h⟩).trans ?_
    simp only [List.mem_finRange, true_and]
    rfl
  have htake : takeStallNotice s = stallCheck v (s.setNotices { s.notices with stalls := none }) := by
    simp only [takeStallNotice, hv]
  rw [hexec, htake, stallCheck, allChannels, heq, hmap]
  rfl

end Sys2Proof.Channels
end

section
/-!
PROOFS. The report queue (chapter 8): the record that a producer hands (O46), the words a record shows the host (O52), the
reads of REPORT_DATA (O22), the writes of the threshold (O34), and the soundness that every step keeps (O55).
-/
namespace Sys2Proof.Reports

open Sys2Proof.Machine Sys2Proof.Safety Sys2Proof.ActionTable Sys2Proof.Timebases

/-! ### Reading a word -/

/-- A read of a record takes the first of its unread words. -/
theorem unreadWords_read_succ (q : Queued) : unreadWords { q with read := q.read + 1 } = (unreadWords q).tail :=
  (List.tail_drop ..).symm

theorem oldestWord_eq (l : List Queued) : oldestWord l = (l.flatMap unreadWords).headD 0#16 := by
  induction l with
  | nil => rfl
  | cons q rest ih => cases h : unreadWords q <;> simp [oldestWord, h, ih]

theorem oldestWord_cons {q : Queued} {w : Word} {ws : List Word} (h : unreadWords q = w :: ws) (rest : List Queued) :
    oldestWord (q :: rest) = w := by
  rw [oldestWord, h]

/-- A record leaves the queue with its last word (R157). -/
theorem popWord_cons {q : Queued} {w : Word} {ws : List Word} (h : unreadWords q = w :: ws) (rest : List Queued) :
    popWord (q :: rest) = if ws = [] then rest else { q with read := q.read + 1 } :: rest := by
  rw [popWord, h]
  cases ws <;> rfl

/-- A pop removes the oldest unread word of the queue and no other. -/
theorem flatMap_popWord (l : List Queued) :
    (popWord l).flatMap unreadWords = (l.flatMap unreadWords).tail := by
  induction l with
  | nil => rfl
  | cons q rest ih =>
    cases h : unreadWords q with
    | nil => simp [popWord, h, ih]
    | cons w ws =>
      rw [popWord_cons h]
      split
      case isTrue hlast => simp [h, hlast]
      case isFalse => simp [unreadWords_read_succ, h]

theorem queueWords_popWord (q : ReportQueue) :
    queueWords { q with records := popWord q.records } = queueWords q - 1 := by
  rw [queueWords_eq, queueWords_eq, flatMap_popWord, List.length_tail]

/-- A read of REPORT_DATA returns the oldest word and pops it. -/
theorem exec_reportDataRead {s : State} (hs : Settled s) :
    exec .reportDataRead s =
      .next { s with
        readWord := oldestWord s.queue.records
        queue := { s.queue with records := popWord s.queue.records } } := by
  have hread : exec .reportDataRead s = .next (windowRead 0x1B#5 s) := taken_of_settled hs
  rw [hread, windowRead, registerWord_of_settled hs]
  rfl

/-- Settles O22: the head record gives its word, and the words of the queue are those of its records in order. -/
theorem reportDataReadPopsOneWord : Obligations.ReportDataReadPopsOneWord := by
  intro s hs _
  rw [exec_reportDataRead hs]
  refine ⟨fun q rest w ws hrecords hunread => ?_, fun hempty => ?_, fun t ht => ?_⟩
  · rw [hrecords, oldestWord_cons hunread, popWord_cons hunread]
  · have hword : oldestWord s.queue.records = 0#16 := by rw [hempty]; rfl
    have hkept : popWord s.queue.records = s.queue.records := by rw [hempty]; rfl
    rw [hword, hkept]
  · cases ht
    exact ⟨oldestWord_eq _, flatMap_popWord _, queueWords_popWord _⟩

/-! ### The threshold -/

/-- The stored threshold, by the cases of R156. -/
theorem thresholdOfWord_eq (w : Word) :
    thresholdOfWord w =
      if w.toNat % 256 = 0 then 1 else if 16 < w.toNat % 256 then 16 else w.toNat % 256 := by
  have hbyte : (w.extractLsb' 0 8).toNat = w.toNat % 256 := by simp
  rw [thresholdOfWord, hbyte, Config.thresholdMin, Config.thresholdMax]
  split_ifs <;> omega

/-- A read of CFG_DATA at an item returns its word and has no side effect (R197). -/
theorem windowRead_cfgItem {s : State} {i : Byte} {item : CfgItem} (hs : Settled s) (hi : s.window.cfgIndex = i)
    (hitem : cfgItemOfIndex i = some item) : windowRead 0x17#5 s = { s with readWord := cfgItemWord item s } := by
  rw [windowRead, registerWord_of_settled hs, settledWord_cfgData, cfgDataWord, hi, hitem]
  exact readEffect_eq_self (by decide) fun _ => by simp [State.setReadWord, hi, hitem]

/-- Settles O34: index 0x22 names the threshold, which the write stores and the read returns. -/
theorem reportThresholdWriteIsLimited : Obligations.ReportThresholdWriteIsLimited := by
  intro w s hs hi
  rw [← thresholdOfWord_eq]
  exact ⟨taken_cfgDataWrite hs hi (item := .threshold) rfl w, windowRead_cfgItem hs hi (item := .threshold) rfl⟩

/-! ### Handing a record -/

/-- With an unread word in each, all the records of the queue are counted (R159). -/
theorem queueRecords_eq_length {q : ReportQueue} (h : ∀ r ∈ q.records, unreadWords r ≠ []) :
    queueRecords q = q.records.length := by
  rw [queueRecords, List.filter_eq_self.mpr fun r hr => by simpa using h r hr]

theorem unreadWords_whole_ne_nil (r : Report) (gap : Nat) : unreadWords ⟨r, gap, 0⟩ ≠ [] := List.cons_ne_nil _ _

/-- What a sound queue asks of each record, of the queue after an append. -/
theorem unread_queueAppend {q : ReportQueue} (h : QueueSound q) (r : Report) :
    ∀ x ∈ (queueAppend q r).records, unreadWords x ≠ [] ∧ x.gap ≤ 65535 := by
  obtain ⟨-, hrecords, -, hlost, -⟩ := h
  intro x hx
  obtain hx | hx := List.mem_append.mp hx
  · exact hrecords x hx
  · rw [List.mem_singleton.mp hx]
    exact ⟨unreadWords_whole_ne_nil r q.lost, hlost⟩

/-- Settles O46, by whether the record fits. -/
theorem handedRecordIsAppendedOrCounted : Obligations.HandedRecordIsAppendedOrCounted := by
  intro r s hs need
  refine ⟨fun hfits => ?_, fun hlost => ?_⟩
  · have hcount := queueRecords_eq_length fun x hx => (unread_queueAppend hs r x hx).1
    rw [handReport, if_pos ((recordFits_iff s.queue r).mpr hfits)]
    simp only [State.setQueue_queue, hcount]
    rfl
  · rw [handReport, if_neg fun hfits => Nat.not_le.mpr hlost ((recordFits_iff s.queue r).mp hfits)]
    rfl

/-! ### The words of a record -/

/-- The number of a header word, from its five fields in their places (R149, R201). -/
def headerNumber (r : Report) (gap : Nat) : Nat :=
  4096 * (reportKindCode r).toNat + (if gap = 0 then 0 else 2048) + 512 * (reportTimebase r).toNat
    + 32 * (reportFlags r).toNat + (reportId r).toNat

theorem reportHeader_eq (r : Report) (gap : Nat) : reportHeader r gap = BitVec.ofNat 16 (headerNumber r gap) := by
  have hgap : (bit (decide (gap ≠ 0))).toNat * 2048 = if gap = 0 then 0 else 2048 := by
    rw [toNat_bit]
    by_cases h : gap = 0 <;> simp [h]
  refine eq_ofNat_of_toNat_eq ?_
  rw [headerNumber, ← hgap]
  simp only [reportHeader, toNat_append_eq]
  omega

/-- The four flags of a header, bit 8 first, in units of bit 5. -/
theorem toNat_fourFlags (a b c d : Bool) :
    32 * (bit a ++ bit b ++ bit c ++ bit d).toNat =
      (if a then 256 else 0) + (if b then 128 else 0) + (if c then 64 else 0) + (if d then 32 else 0) := by
  simp only [toNat_append_eq, toNat_bit]
  split_ifs <;> rfl

/-- The flags of a kind that uses bits 8 and 7 alone. -/
theorem toNat_twoFlags (a b : Bool) :
    32 * (bit a ++ bit b ++ 0#2).toNat = (if a then 256 else 0) + (if b then 128 else 0) := by
  simp only [toNat_append_eq, toNat_bit]
  split_ifs <;> rfl

theorem toNat_channelId (c : Fin 4) : (BitVec.ofNat 5 c.val).toNat = c.val := by
  simp only [BitVec.toNat_ofNat]
  omega

theorem headerNumber_fired (i : SlotId) (t : Timebase) (due : Tick) (f : FiredFlags) (gap : Nat) :
    headerNumber (.fired i t due f) gap =
      4096 + (if gap = 0 then 0 else 2048) + 512 * timebaseNumber t + (if f.last then 256 else 0)
        + (if f.late then 128 else 0) + (if f.cut then 64 else 0) + (if f.absorbed then 32 else 0) + i.val := by
  rw [headerNumber, reportTimebase, toNat_timebaseCode, reportFlags, toNat_fourFlags]
  simp only [reportKindCode, reportId, BitVec.toNat_ofFin, BitVec.toNat_ofNat]
  omega

theorem headerNumber_refused (i : SlotId) (t : Timebase) (byAction byGroup : Bool) (gap : Nat) :
    headerNumber (.refused i t byAction byGroup) gap =
      8192 + (if gap = 0 then 0 else 2048) + 512 * timebaseNumber t + (if byAction then 256 else 0)
        + (if byGroup then 128 else 0) + i.val := by
  rw [headerNumber, reportTimebase, toNat_timebaseCode, reportFlags, toNat_twoFlags, ← Nat.add_assoc]
  rfl

theorem headerNumber_skipped (i : SlotId) (t : Timebase) (gap : Nat) :
    headerNumber (.skipped i t) gap =
      12288 + (if gap = 0 then 0 else 2048) + 512 * timebaseNumber t + i.val := by
  rw [headerNumber, reportTimebase, toNat_timebaseCode]
  rfl

theorem headerNumber_meas (c : Fin 4) (mean : Word) (extremes : Option (Word × Word)) (limited : Bool) (gap : Nat) :
    headerNumber (.meas c mean extremes limited) gap =
      16384 + (if gap = 0 then 0 else 2048) + (if extremes.isSome then 256 else 0) + (if limited then 128 else 0)
        + c.val := by
  rw [headerNumber, reportFlags, toNat_twoFlags, reportId, toNat_channelId, ← Nat.add_assoc]
  rfl

theorem headerNumber_stall (c : Fin 4) (gap : Nat) :
    headerNumber (.stall c) gap = 20480 + (if gap = 0 then 0 else 2048) + c.val := by
  rw [headerNumber, reportId, toNat_channelId]
  rfl

theorem headerNumber_closed (c : Fin 4) (count : Word) (gap : Nat) :
    headerNumber (.closed c count) gap = 24576 + (if gap = 0 then 0 else 2048) + c.val := by
  rw [headerNumber, reportId, toNat_channelId]
  rfl

/-- A record's words: its header by number, its gap word when records were lost before it, its content (R151). -/
theorem queuedWords_eq {r : Report} {gap n : Nat} {content : List Word} (read : Nat) (hheader : headerNumber r gap = n)
    (hcontent : reportContent r = content) :
    queuedWords ⟨r, gap, read⟩ =
      BitVec.ofNat 16 n :: ((if gap = 0 then [] else [BitVec.ofNat 16 gap]) ++ content) := by
  rw [queuedWords, reportHeader_eq, hheader, hcontent]

/-- The same for a kind without content words. -/
theorem queuedWords_eq_of_bare {r : Report} {gap n : Nat} (read : Nat) (hheader : headerNumber r gap = n)
    (hcontent : reportContent r = []) :
    queuedWords ⟨r, gap, read⟩ = BitVec.ofNat 16 n :: (if gap = 0 then [] else [BitVec.ofNat 16 gap]) := by
  rw [queuedWords_eq read hheader hcontent, List.append_nil]

theorem reportContent_fired (i : SlotId) (t : Timebase) (due : Tick) (f : FiredFlags) :
    reportContent (.fired i t due f) = [BitVec.ofNat 16 (due.toNat / 65536), BitVec.ofNat 16 (due.toNat % 65536)] := by
  rw [reportContent, highWord_eq, lowWord_eq]

/-- Settles O52, by the kind of the record. -/
theorem recordWordsCarryTheirFields : Obligations.RecordWordsCarryTheirFields := by
  intro gap read
  refine ⟨fun i t due f => ?fired, fun i t byAction byGroup => ?refused, fun i t => ?skipped,
    fun c mean limited => ?mean, fun c mean lo hi limited => ?extremes, fun c => ?stall, fun c count => ?closed,
    fun r => ⟨rfl, rfl⟩⟩
  case fired => exact queuedWords_eq read (headerNumber_fired i t due f gap) (reportContent_fired i t due f)
  case refused => exact queuedWords_eq_of_bare read (headerNumber_refused i t byAction byGroup gap) rfl
  case skipped => exact queuedWords_eq_of_bare read (headerNumber_skipped i t gap) rfl
  case mean => exact queuedWords_eq read (headerNumber_meas c mean none limited gap) rfl
  case extremes => exact queuedWords_eq read (headerNumber_meas c mean (some (lo, hi)) limited gap) rfl
  case stall => exact queuedWords_eq_of_bare read (headerNumber_stall c gap) rfl
  case closed => exact queuedWords_eq read (headerNumber_closed c count gap) rfl

/-! ### Soundness -/

theorem queueSound_append {q : ReportQueue} {r : Report} (hfits : recordFits q r = true) (h : QueueSound q) :
    QueueSound (queueAppend q r) := by
  have hunread := unread_queueAppend h r
  obtain ⟨-, -, hread, -, hthreshold⟩ := h
  refine ⟨?_, hunread, fun x hx => ?_, Nat.zero_le _, hthreshold⟩
  · rw [queueWords_eq, queueAppend, List.flatMap_append, List.length_append, Nat.add_comm, List.flatMap_singleton]
    exact (recordFits_iff q r).mp hfits
  · cases hq : q.records with
    | nil => simp [queueAppend, hq] at hx
    | cons head rest =>
      rw [hq] at hread
      simp only [queueAppend, hq, List.cons_append, List.tail_cons] at hx
      obtain hx | hx := List.mem_append.mp hx
      · exact hread x hx
      · rw [List.mem_singleton.mp hx]

theorem queueSound_drop {q : ReportQueue} (h : QueueSound q) : QueueSound (queueDrop q) := by
  obtain ⟨hwords, hrecords, hread, -, hthreshold⟩ := h
  exact ⟨hwords, hrecords, hread, Nat.min_le_right _ _, hthreshold⟩

/-- A pop leaves the records behind the head whole, and the head in the queue only while a word of it is unread. -/
theorem queueSound_pop {q : ReportQueue} (h : QueueSound q) : QueueSound { q with records := popWord q.records } := by
  have hpopped := queueWords_popWord q
  obtain ⟨hwords, hrecords, hread, hcounts⟩ := h
  suffices hkept : (∀ x ∈ popWord q.records, unreadWords x ≠ [] ∧ x.gap ≤ 65535) ∧
      ∀ x ∈ (popWord q.records).tail, x.read = 0 from
    ⟨by omega, hkept.1, hkept.2, hcounts⟩
  cases hq : q.records with
  | nil => simp [popWord]
  | cons head rest =>
    rw [hq] at hrecords hread
    obtain ⟨hhead, hrest⟩ := List.forall_mem_cons.mp hrecords
    obtain ⟨w, ws, hunread⟩ := List.exists_cons_of_ne_nil hhead.1
    rw [popWord_cons hunread]
    split
    case isTrue => exact ⟨hrest, fun x hx => hread x (List.mem_of_mem_tail hx)⟩
    case isFalse hmore =>
      refine ⟨List.forall_mem_cons.mpr ⟨⟨?_, hhead.2⟩, hrest⟩, hread⟩
      rwa [unreadWords_read_succ, hunread]

/-- A flush and a reset leave an empty queue and no lost count (R162, R164). -/
theorem queueSound_flush {q : ReportQueue} (h : QueueSound q) : QueueSound { q with records := [], lost := 0 } := by
  obtain ⟨-, -, -, -, hthreshold⟩ := h
  exact ⟨Nat.zero_le _, List.forall_mem_nil _, List.forall_mem_nil _, Nat.zero_le _, hthreshold⟩

theorem thresholdOfWord_mem (w : Word) : 1 ≤ thresholdOfWord w ∧ thresholdOfWord w ≤ 16 := by
  rw [thresholdOfWord_eq]
  split_ifs <;> omega

theorem queueSound_threshold {q : ReportQueue} (w : Word) (h : QueueSound q) :
    QueueSound { q with threshold := thresholdOfWord w } := by
  obtain ⟨hwords, hrecords, hread, hlost, -⟩ := h
  exact ⟨hwords, hrecords, hread, hlost, thresholdOfWord_mem w⟩

theorem change_keeps_queueSound {s t : State} (h : Change s t) (hs : QueueSound s.queue) : QueueSound t.queue := by
  cases h with
  | append r hfits => exact queueSound_append hfits hs
  | drop => exact queueSound_drop hs
  | _ => exact hs

theorem access_keeps_queueSound {s t : State} (h : Access s t) (hs : QueueSound s.queue) : QueueSound t.queue := by
  cases h with
  | change hc => exact change_keeps_queueSound hc hs
  | pop => exact queueSound_pop hs
  | flush => exact queueSound_flush hs
  | threshold w => exact queueSound_threshold w hs
  | enables w => unfold writeEnables; dsimp only; split <;> exact hs
  | _ => exact hs

/-- The SAFE transitions do not reach the queue. -/
theorem safeAsserted_queue (s : State) : (safeAsserted s).queue = s.queue := by
  unfold safeAsserted
  split
  · rfl
  · dsimp only; split <;> rfl

theorem safeReleased_queue (s : State) : (safeReleased s).queue = s.queue := by
  unfold safeReleased
  split
  · rfl
  · split <;> rfl

theorem move_keeps_queueSound {s t : State} (h : Move s t) (hs : QueueSound s.queue) : QueueSound t.queue := by
  cases h with
  | access ha => exact access_keeps_queueSound ha hs
  | safeAsserted => rwa [safeAsserted_queue]
  | safeReleased => rwa [safeReleased_queue]
  | released _ => exact hs
  | engineReset => exact queueSound_flush hs

/-- Power-on leaves an empty queue with threshold 1 (R164). -/
theorem queueSound_powerOn (ins : Vector Level 4) (safeN : Level) : QueueSound (State.powerOn ins safeN).queue := by
  change QueueSound ⟨[], 0, 1⟩
  decide

/-- Settles O55, by induction over the moves of the command that the step takes. -/
theorem reportQueueStaysSound : Obligations.ReportQueueStaysSound := fun _ _ hs h =>
  step_keeps (P := fun s => QueueSound s.queue) (fun _ _ => move_keeps_queueSound)
    (fun ins safeN _ => queueSound_powerOn ins safeN) (fun _ _ hs => hs) h hs

end Sys2Proof.Reports
end

section
/-!
PROOFS. The four faults at the window: a command word while BUSY (O9), a staging write during a READ_SLOT (O25), CFG_DATA at
no item (O35), and the FAULT register itself (O27).
-/
namespace Sys2Proof.Notifications

open Sys2Proof.Machine Sys2Proof.Safety Sys2Proof.ActionTable

/-! ### Command words -/

/-- A busy engine discards every command word (R187). -/
theorem commandWrite_busy {s : State} {rec : CommandRecord} (h : s.window.engine = some rec) (w : Word) :
    commandWrite w s = raiseFault (fun f => { f with cmdOverrun := true }) s := by
  simp only [commandWrite, h]

/-- Settles O9: each row is a write to COMMAND, and the busy engine does not read the word. -/
theorem wordWrittenWhileBusyIsDiscarded : Obligations.WordWrittenWhileBusyIsDiscarded := by
  intro w c a rec s hs hbusy
  have hword : exec (.commandWriteInBusy w) s = .next (raiseFault (fun f => { f with cmdOverrun := true }) s) :=
    (taken_of_settled hs).trans (congrArg _ (commandWrite_busy hbusy w))
  refine ⟨by rw [hword, raiseFault_eq], ?_⟩
  rw [exec_hostCommand, taken_of_settled hs, commandWrite_busy hbusy, hword]

/-! ### Staging writes -/

theorem readSlotInFlight_iff (s : State) :
    readSlotInFlight s = true ↔ ∃ a, s.window.engine = some ⟨.readSlot, a⟩ := by
  unfold readSlotInFlight
  cases s.window.engine with
  | none => simp
  | some rec =>
    obtain ⟨job, argument⟩ := rec
    simp

/-- Settles O25, by whether a READ_SLOT is in flight. -/
theorem stageWriteStoresOrConflicts : Obligations.StageWriteStoresOrConflicts := by
  intro k w s hs
  have hwrite : exec (.stageWrite k w) s = .next (stageWrite k w s) := taken_of_settled hs
  rw [hwrite, stageWrite]
  refine ⟨fun hnone => ?_, fun a hread => ?_⟩
  · rw [if_neg fun h => (readSlotInFlight_iff s).mp h |>.elim hnone]
    rfl
  · rw [if_pos ((readSlotInFlight_iff s).mpr ⟨a, hread⟩), raiseFault_eq]

/-! ### CFG_DATA at no item -/

theorem raiseBadIndex_eq (s : State) :
    raiseBadIndex s = { s with notify := { s.notify with
      flags := s.notify.flags.set 0 true
      faults := { s.notify.faults with badIndex := true } } } := raiseFault_eq _ s

theorem windowWrite_noItem {s : State} (h : cfgItemOfIndex s.window.cfgIndex = none) (w : Word) :
    windowWrite 0x17#5 w s = raiseBadIndex s := by
  change cfgDataWrite w s = _
  simp only [cfgDataWrite, h]

theorem readEffect_noItem {s : State} (h : cfgItemOfIndex s.window.cfgIndex = none) :
    readEffect 0x17#5 s = raiseBadIndex s := by
  change readCfgData s = _
  simp only [readCfgData, h]

/-- Settles O35: both accesses find no item at CFG_INDEX. -/
theorem badIndexAccessIsDiscarded : Obligations.BadIndexAccessIsDiscarded := by
  intro w s hs hindex
  have hnone : cfgItemOfIndex s.window.cfgIndex = none := cfgItemOfIndex_eq_none hindex
  have hwrite : exec (.badIndex (.write w)) s = .next (windowWrite 0x17#5 w s) := taken_of_settled hs
  have hread : exec (.badIndex .read) s = .next (windowRead 0x17#5 s) := taken_of_settled hs
  have hword : registerWord 0x17#5 s = 0#16 := by
    rw [registerWord_of_settled hs, settledWord_cfgData, cfgDataWord, hnone]
  refine ⟨?_, ?_⟩
  · rw [hwrite, windowWrite_noItem hnone, raiseBadIndex_eq]
  · rw [hread, windowRead, hword, readEffect_noItem (s := s.setReadWord 0#16) hnone, raiseBadIndex_eq]
    rfl

/-! ### FAULT -/

theorem settledWord_fault (s : State) : settledWord 0x1F#5 s = faultWord s.notify.faults := rfl

/-- FAULT: the four bits, CMD_OVERRUN lowest (R200). -/
theorem toNat_faultWord (f : FaultBits) :
    (faultWord f).toNat =
      (if f.cmdOverrun then 1 else 0) + (if f.stageConflict then 2 else 0) + (if f.badIndex then 4 else 0)
        + (if f.completeUnderflow then 8 else 0) := by
  simp only [faultWord, toNat_append_eq, toNat_bit, BitVec.toNat_ofNat]
  split_ifs <;> rfl

/-- Settles O27: the write is `faultAfterWrite`, bit by bit the statement's record. -/
theorem faultWriteClearsBits : Obligations.FaultWriteClearsBits := by
  intro w s hs
  have hwrite : exec (.faultWrite w) s = .next (writeFault w s) := taken_of_settled hs
  refine ⟨hwrite, ?_, readEffect_eq_self (by decide) fun h => absurd h (by decide)⟩
  rw [registerWord_of_settled hs, settledWord_fault]
  exact toNat_faultWord s.notify.faults

end Sys2Proof.Notifications
end

section
/-!
PROOFS. The notification controller at the window: the source that a claim takes (O23), the complete and its underflow (O24),
and the writes of the level settings (O33).
-/
namespace Sys2Proof.Notifications

open Sys2Proof.Machine Sys2Proof.Safety Sys2Proof.ActionTable Sys2Proof.Timebases Sys2Proof.Lines

/-! ### The source a claim takes -/

section

variable {n : NotifyUnit} {l : List Source} {best : Option Source} {src : Source}

/-- The order in which claims take eligible sources: the higher level first, then the lower number (R171). -/
def ClaimedBefore (n : NotifyUnit) (a b : Source) : Prop :=
  (sourceLevel n b).getD 0 < (sourceLevel n a).getD 0 ∨
    ((sourceLevel n b).getD 0 = (sourceLevel n a).getD 0 ∧ sourceNumber a ≤ sourceNumber b)

theorem ClaimedBefore.refl (n : NotifyUnit) (src : Source) : ClaimedBefore n src src := .inr ⟨rfl, le_rfl⟩

/-- The right choice among the sources of a list: none when none is eligible, else an eligible one of them that is claimed
before every other. -/
def BestOf (n : NotifyUnit) (l : List Source) : Option Source → Prop
  | none => ∀ src ∈ l, sourceEligible n src = false
  | some best =>
    best ∈ l ∧ sourceEligible n best = true ∧ ∀ src ∈ l, sourceEligible n src = true → ClaimedBefore n best src

/-- One more source, of a number above those seen, is taken over the best of them only for a higher level. -/
theorem bestOf_betterSource (h : BestOf n l best) (hlast : ∀ a ∈ l, sourceNumber a < sourceNumber src) :
    BestOf n (l ++ [src]) (betterSource n best src) := by
  have hsrc : src ∈ l ++ [src] := List.mem_append_right l List.mem_cons_self
  cases best with
  | none =>
    by_cases he : sourceEligible n src = true
    · simp only [betterSource, if_pos he]
      refine ⟨hsrc, he, List.forall_mem_append.mpr ⟨fun x hx hex => ?_, List.forall_mem_singleton.mpr fun _ => .refl n src⟩⟩
      simp [h x hx] at hex
    · simp only [betterSource, if_neg he]
      exact List.forall_mem_append.mpr ⟨h, List.forall_mem_singleton.mpr (Bool.eq_false_of_not_eq_true he)⟩
  | some b =>
    obtain ⟨hmem, hb, hall⟩ := h
    by_cases he : (sourceEligible n src && decide ((sourceLevel n b).getD 0 < (sourceLevel n src).getD 0)) = true
    · simp only [betterSource, if_pos he]
      obtain ⟨hes, hlt⟩ := Bool.and_eq_true_iff.mp he
      have hlt := of_decide_eq_true hlt
      refine ⟨hsrc, hes, List.forall_mem_append.mpr ⟨fun x hx hex => ?_, List.forall_mem_singleton.mpr fun _ => .refl n src⟩⟩
      rcases hall x hx hex with h | ⟨h, -⟩
      · exact .inl (h.trans hlt)
      · exact .inl (h ▸ hlt)
    · simp only [betterSource, if_neg he]
      refine ⟨List.mem_append_left _ hmem, hb, List.forall_mem_append.mpr ⟨hall, List.forall_mem_singleton.mpr fun hes => ?_⟩⟩
      have hle : (sourceLevel n src).getD 0 ≤ (sourceLevel n b).getD 0 := by simpa [hes] using he
      exact hle.lt_or_eq.imp_right fun h => ⟨h, (hlast b hmem).le⟩

theorem bestOf_foldl (n : NotifyUnit) (hl : l.Pairwise fun a b => sourceNumber a < sourceNumber b) :
    BestOf n l (l.foldl (betterSource n) none) := by
  induction l using List.reverseRecOn with
  | nil => exact fun _ h => absurd h List.not_mem_nil
  | append_singleton l src ih =>
    obtain ⟨hl, -, hlast⟩ := List.pairwise_append.mp hl
    rw [List.foldl_append]
    exact bestOf_betterSource (ih hl) fun a ha => hlast a ha src List.mem_cons_self

end

/-- The source that a claim selects is the right choice among all thirteen (R171). -/
theorem bestOf_bestSource (n : NotifyUnit) : BestOf n allSources (bestSource n) := bestOf_foldl n (by decide)

/-- An eligible source is enabled, and the current level is below its level (R170). -/
theorem exists_level_of_eligible {n : NotifyUnit} {src : Source} (h : sourceEligible n src = true) :
    ∃ level, sourceLevel n src = some level ∧ handlingRank n.current < level.val + 1 := by
  unfold sourceEligible at h
  cases hl : sourceLevel n src with
  | none => simp [hl] at h
  | some level => exact ⟨level, rfl, by simp_all⟩

/-- What a claim does and returns: nothing and 0 with no eligible source, else its record with the source's number (R171,
R172). -/
theorem notifyClaim_cases (n : NotifyUnit) :
    ((∀ src, sourceEligible n src = false) ∧ notifyClaim n = n ∧ claimWord n = 0#16) ∨
    ∃ best level, sourceEligible n best = true ∧ sourceLevel n best = some level ∧
      (∀ other, sourceEligible n other = true → ClaimedBefore n best other) ∧
      claimWord n = BitVec.ofNat 16 (sourceNumber best) ∧
      notifyClaim n = { n with
        flags := n.flags.set (sourceIndex best) false
        stack := n.current :: n.stack
        current := .level level } := by
  have hbest := bestOf_bestSource n
  unfold claimWord notifyClaim
  cases h : bestSource n with
  | none =>
    rw [h] at hbest
    exact .inl ⟨fun src => hbest src (mem_allSources src), rfl, rfl⟩
  | some best =>
    rw [h] at hbest
    obtain ⟨-, he, hall⟩ := hbest
    obtain ⟨level, hlevel, -⟩ := exists_level_of_eligible he
    exact .inr ⟨best, level, he, hlevel, fun other => hall other (mem_allSources other), rfl, by simp [hlevel]⟩

/-- A read of NOTIFY_CLAIM returns the word of the claim and makes it. -/
theorem exec_claim {s : State} (hs : Settled s) :
    exec .claim s = .next { s with readWord := claimWord s.notify, notify := notifyClaim s.notify } := by
  have hread : exec .claim s = .next (windowRead 0x1D#5 s) := taken_of_settled hs
  rw [hread, windowRead, registerWord_of_settled hs]
  rfl

/-- Settles O23, by whether a source is eligible. -/
theorem claimTakesTheBestSource : Obligations.ClaimTakesTheBestSource := by
  intro s hs
  rw [exec_claim hs]
  rcases notifyClaim_cases s.notify with ⟨hnone, hkept, hzero⟩ | ⟨best, level, he, hlevel, hall, hword, hclaim⟩
  · refine ⟨fun _ => by rw [hkept, hzero], fun src hsrc => ?_⟩
    simp [hnone src] at hsrc
  · refine ⟨fun hnone => ?_, fun _ _ => ⟨best, level, he, hlevel, fun other otherLevel ho hol => ?_, by rw [hword, hclaim]⟩⟩
    · simp [hnone best] at he
    · simpa [ClaimedBefore, hlevel, hol] using hall other ho

/-! ### Completes -/

/-- The FAULT source is never disabled and stands at level 3, above OPEN (R166, R170). -/
theorem fault_interrupts {n : NotifyUnit} (hflag : n.flags[0] = true) (hopen : n.current = .openLevel) :
    sourceEligible n .fault = true ∧ irqAsserted n = true := by
  have heligible : sourceEligible n .fault = true :=
    (sourceEligible_iff n .fault).mpr ⟨3, hflag, rfl, by rw [hopen]; trivial⟩
  exact ⟨heligible, List.any_eq_true.mpr ⟨.fault, mem_allSources .fault, heligible⟩⟩

/-- With the claim stack empty the current level is OPEN, and only then (R169). -/
theorem stack_eq_nil_iff {n : NotifyUnit} (h : ClaimStackSound n) : n.stack = [] ↔ n.current = .openLevel := by
  obtain ⟨hordered, hlast⟩ := h
  constructor
  · intro hs
    simpa [hs] using hlast
  · intro hopen
    rw [hopen] at hordered
    exact List.eq_nil_iff_forall_not_mem.mpr fun x hx =>
      Nat.not_lt_zero _ (List.rel_of_pairwise_cons hordered hx)

theorem notifyComplete_nil {n : NotifyUnit} (h : n.stack = []) :
    notifyComplete n = notifyFault (fun f => { f with completeUnderflow := true }) n := by
  simp only [notifyComplete, h]

theorem notifyComplete_cons {n : NotifyUnit} {top : Handling} {rest : List Handling} (h : n.stack = top :: rest) :
    notifyComplete n = { n with current := top, stack := rest } := by
  simp only [notifyComplete, h]

/-- Settles O24, by the claim stack. -/
theorem completePopsOrUnderflows : Obligations.CompletePopsOrUnderflows := by
  intro w s hs hsound
  have hwrite : exec (.complete w) s = .next (s.setNotify (notifyComplete s.notify)) := taken_of_settled hs
  rw [hwrite]
  refine ⟨fun top rest hstack => by rw [notifyComplete_cons hstack]; rfl, fun hstack => ?_⟩
  have hopen := (stack_eq_nil_iff hsound).mp hstack
  have hfault : s.setNotify (notifyComplete s.notify) = _ :=
    (congrArg s.setNotify (notifyComplete_nil hstack)).trans (raiseFault_eq _ s)
  rw [hfault]
  refine ⟨hopen, rfl, ?_⟩
  rintro t ⟨⟩
  exact fault_interrupts (Vector.getElem_set_self _) hopen

/-! ### Level settings -/

/-- The code of a setting, as the number it is (R166). -/
theorem settingOfCode_eq : ∀ b : BitVec 2,
    settingOfCode b =
      match b.toNat with
      | 0 => .disabled
      | 1 => .level 0
      | 2 => .level 1
      | _ => .level 2 := by decide

theorem settingOfCode_eq_disabled_iff : ∀ b : BitVec 2, settingOfCode b = .disabled ↔ b.toNat = 0 := by decide

/-- The settings of the positions in a list are stored, one after the other. -/
def setLevels (f : Fin 11 → NotifySetting) (l : List (Fin 11)) (n : NotifyUnit) : NotifyUnit :=
  l.foldl (fun n k => notifySetLevel k (f k) n) n

section

variable (f : Fin 11 → NotifySetting) (l : List (Fin 11)) (n : NotifyUnit)

theorem setLevels_settings (j : Fin 11) :
    (setLevels f l n).settings[j] = if j ∈ l then f j else n.settings[j] := by
  induction l generalizing n with
  | nil => rfl
  | cons k rest ih =>
    rw [setLevels, List.foldl_cons, ← setLevels, ih]
    by_cases hk : k = j
    · subst hk
      simp [notifySetLevel]
    · have hv : k.val ≠ j.val := fun h => hk (Fin.ext h)
      simp [notifySetLevel, hv, Ne.symm hk]

/-- A flag stays set unless the setting of its source is stored as DISABLED (R167). -/
theorem setLevels_flags (j : Fin 13) :
    (setLevels f l n).flags[j] = true ↔ n.flags[j] = true ∧ ∀ k ∈ l, k.val + 2 = j.val → f k ≠ .disabled := by
  induction l generalizing n with
  | nil => simp [setLevels]
  | cons k rest ih =>
    rw [setLevels, List.foldl_cons, ← setLevels, ih, List.forall_mem_cons, ← and_assoc]
    refine and_congr_left' ?_
    by_cases hd : f k = .disabled
    · by_cases hj : k.val + 2 = j.val <;> simp [notifySetLevel, hd, hj]
    · simp [notifySetLevel, hd]

theorem setLevels_frame :
    (setLevels f l n).current = n.current ∧ (setLevels f l n).stack = n.stack ∧ (setLevels f l n).faults = n.faults := by
  induction l generalizing n with
  | nil => exact ⟨rfl, rfl, rfl⟩
  | cons k rest ih => exact ih _

end

/-- The setting that a level item's word holds for a position, in an item that starts at position `first` (R198). -/
def itemSetting (first : Nat) (w : Word) (k : Fin 11) : NotifySetting :=
  settingOfCode (w.extractLsb' (2 * (k.val - first)) 2)

/-- The positions that item 0x20 holds, and those that item 0x21 holds. -/
def lowPositions : List (Fin 11) := (List.finRange 8).map fun k => ⟨k.val, by omega⟩

def highPositions : List (Fin 11) := (List.finRange 3).map fun k => ⟨8 + k.val, by omega⟩

theorem mem_lowPositions : ∀ k : Fin 11, k ∈ lowPositions ↔ 0 ≤ k.val ∧ k.val < 0 + 8 := by decide

theorem mem_highPositions : ∀ k : Fin 11, k ∈ highPositions ↔ 8 ≤ k.val ∧ k.val < 8 + 3 := by decide

theorem notifyWriteLow_eq (w : Word) (n : NotifyUnit) : notifyWriteLow w n = setLevels (itemSetting 0 w) lowPositions n := by
  rw [setLevels, lowPositions, List.foldl_map]
  rfl

theorem notifyWriteHigh_eq (w : Word) (n : NotifyUnit) :
    notifyWriteHigh w n = setLevels (itemSetting 8 w) highPositions n := by
  simp only [setLevels, highPositions, List.foldl_map, itemSetting, Nat.add_sub_cancel_left]
  rfl

/-- What the write of a level item leaves, for an item of `count` settings from position `first`. -/
theorem setLevels_item {first count : Nat} {l : List (Fin 11)}
    (hl : ∀ k : Fin 11, k ∈ l ↔ first ≤ k.val ∧ k.val < first + count) (w : Word) (n : NotifyUnit) :
    (∀ k : Fin 11, (setLevels (itemSetting first w) l n).settings[k] =
      if first ≤ k.val ∧ k.val < first + count then
        (match w.toNat / 4 ^ (k.val - first) % 4 with
        | 0 => NotifySetting.disabled
        | 1 => .level 0
        | 2 => .level 1
        | _ => .level 2)
      else n.settings[k]) ∧
    ∀ j : Fin 13, (setLevels (itemSetting first w) l n).flags[j] =
      if first + 2 ≤ j.val ∧ j.val < first + 2 + count ∧ w.toNat / 4 ^ (j.val - (first + 2)) % 4 = 0 then false
      else n.flags[j] := by
  refine ⟨fun k => ?_, fun j => ?_⟩
  · rw [setLevels_settings, itemSetting, settingOfCode_eq, toNat_extractLsb'_pair]
    exact if_congr (hl k) rfl rfl
  · have hcleared : (∀ k ∈ l, k.val + 2 = j.val → itemSetting first w k ≠ .disabled) ↔
        ¬(first + 2 ≤ j.val ∧ j.val < first + 2 + count ∧ w.toNat / 4 ^ (j.val - (first + 2)) % 4 = 0) := by
      simp only [itemSetting, ne_eq, settingOfCode_eq_disabled_iff, toNat_extractLsb'_pair, hl]
      constructor
      · rintro h ⟨h₁, h₂, hzero⟩
        refine h ⟨j.val - 2, by omega⟩ ⟨by simp only; omega, by simp only; omega⟩ (by simp only; omega) ?_
        simpa only [Nat.sub_sub, Nat.add_comm] using hzero
      · intro h k hk hkj hzero
        have hsub : j.val - (first + 2) = k.val - first := by omega
        exact h ⟨by omega, by omega, by rwa [hsub]⟩
    rw [Bool.eq_iff_iff, setLevels_flags, hcleared]
    split_ifs with h <;> simp [h]

/-- Settles O33: each item is the stores of the positions it holds. -/
theorem notificationLevelsWriteSetsSettings : Obligations.NotificationLevelsWriteSetsSettings := by
  intro w s hs hi
  rcases hi with hi | hi
  · simp only [hi]
    obtain ⟨hsettings, hflags⟩ := setLevels_item mem_lowPositions w s.notify
    refine ⟨_, ?_, hsettings, hflags, setLevels_frame _ _ _⟩
    rw [← notifyWriteLow_eq]
    exact taken_cfgDataWrite hs hi (item := .levelsLow) rfl w
  · simp only [hi]
    obtain ⟨hsettings, hflags⟩ := setLevels_item mem_highPositions w s.notify
    refine ⟨_, ?_, hsettings, hflags, setLevels_frame _ _ _⟩
    rw [← notifyWriteHigh_eq]
    exact taken_cfgDataWrite hs hi (item := .levelsHigh) rfl w

end Sys2Proof.Notifications
end

section
/-!
PROOFS. The invariant of the notification controller (O54): what a command can do to it is said once, and the order of the
claim stack and the flags of disabled sources are kept by each of these changes.
-/
namespace Sys2Proof.Notifications

open Sys2Proof.Machine Sys2Proof.Safety Sys2Proof.Timebases

/-! ### What a command can do to the notification controller -/

/-- One change of the notification controller: a cause, a new FAULT register, a claim, a complete on a claim stack that holds a
level, one level setting, or the clearing of an ENGINE_RESET. -/
inductive NotifyChange (n : NotifyUnit) : NotifyUnit → Prop where
  | none : NotifyChange n n
  | cause (src : Source) : NotifyChange n (notifyCause src n)
  | faults (f : FaultBits) : NotifyChange n { n with faults := f }
  | claim : NotifyChange n (notifyClaim n)
  | complete (top : Handling) (rest : List Handling) (h : n.stack = top :: rest) :
      NotifyChange n { n with current := top, stack := rest }
  | level (k : Fin 11) (setting : NotifySetting) : NotifyChange n (notifySetLevel k setting n)
  | engineReset : NotifyChange n (notifyEngineReset n)

theorem change_notifyChange {s t : State} (h : Change s t) : NotifyChange s.notify t.notify := by
  cases h with
  | cause src => exact .cause src
  | _ => exact .none

theorem access_notifyChange {s t : State} (h : Access s t) : NotifyChange s.notify t.notify := by
  cases h with
  | change hc => exact change_notifyChange hc
  | enables w => unfold writeEnables; dsimp only; split <;> exact .none
  | faults f => exact .faults f
  | claim => exact .claim
  | complete top rest hstack => exact .complete top rest hstack
  | level k setting => exact .level k setting
  | _ => exact .none

theorem safeAsserted_notifyChange (s : State) : NotifyChange s.notify (safeAsserted s).notify := by
  unfold safeAsserted
  split
  case isTrue => exact .none
  case isFalse =>
    dsimp only
    split
    · exact .cause .safe
    · exact .cause .safe
    · exact .none

theorem safeReleased_notify (s : State) : (safeReleased s).notify = s.notify := by
  unfold safeReleased
  split
  · rfl
  · split <;> rfl

theorem move_notifyChange {s t : State} (h : Move s t) : NotifyChange s.notify t.notify := by
  cases h with
  | access ha => exact access_notifyChange ha
  | safeAsserted => exact safeAsserted_notifyChange s
  | safeReleased => rw [safeReleased_notify]; exact .none
  | released _ => exact .none
  | engineReset => exact .engineReset

/-- A property of the notification controller that each of these changes keeps, and that power-on gives it, is kept by every
step. -/
theorem step_keeps_notify {P : NotifyUnit → Prop} (hkeeps : ∀ n m, NotifyChange n m → P n → P m) (hinit : P NotifyUnit.initial)
    (s t : State) (hs : P s.notify) (h : step s = .next t) : P t.notify :=
  step_keeps (P := fun s => P s.notify) (fun _ _ hm => hkeeps _ _ (move_notifyChange hm)) (fun _ _ _ => hinit)
    (fun _ _ hs => hs) h hs

/-! ### The claim stack -/

/-- What leaves the current level and the claim stack alone keeps them sound. -/
theorem claimStackSound_of_frame {n m : NotifyUnit} (hcurrent : m.current = n.current) (hstack : m.stack = n.stack)
    (h : ClaimStackSound n) : ClaimStackSound m := by
  rwa [ClaimStackSound, hcurrent, hstack]

/-- A claim pushes the current level below the level of an eligible source, which is above it (R170, R171). -/
theorem claimStackSound_claim {n : NotifyUnit} (h : ClaimStackSound n) : ClaimStackSound (notifyClaim n) := by
  rcases notifyClaim_cases n with ⟨-, hkept, -⟩ | ⟨best, level, he, hlevel, -, -, hclaim⟩
  · rwa [hkept]
  · rw [hclaim]
    obtain ⟨hordered, hlast⟩ := h
    obtain ⟨level', hlevel', habove⟩ := exists_level_of_eligible he
    obtain rfl : level = level' := Option.some.inj (hlevel.symm.trans hlevel')
    refine ⟨List.pairwise_cons.mpr ⟨List.forall_mem_cons.mpr ⟨habove, fun x hx => ?_⟩, hordered⟩, hlast⟩
    exact (List.rel_of_pairwise_cons hordered hx).trans habove

/-- A complete leaves the rest of the stack as it stood below the current level (R174). -/
theorem claimStackSound_complete {n : NotifyUnit} {top : Handling} {rest : List Handling} (hstack : n.stack = top :: rest)
    (h : ClaimStackSound n) : ClaimStackSound { n with current := top, stack := rest } := by
  obtain ⟨hordered, hlast⟩ := h
  rw [hstack] at hordered hlast
  exact ⟨hordered.of_cons, by rwa [List.getLast?_cons_cons] at hlast⟩

theorem claimStackSound_engineReset (n : NotifyUnit) : ClaimStackSound (notifyEngineReset n) :=
  ⟨List.pairwise_singleton _ _, rfl⟩

theorem notifyChange_keeps_claimStackSound {n m : NotifyUnit} (h : NotifyChange n m) (hn : ClaimStackSound n) :
    ClaimStackSound m := by
  cases h with
  | none => exact hn
  | cause src => exact claimStackSound_of_frame (notifyCause_current src n) (notifyCause_stack src n) hn
  | faults f => exact hn
  | claim => exact claimStackSound_claim hn
  | complete top rest hstack => exact claimStackSound_complete hstack hn
  | level k setting => exact hn
  | engineReset => exact claimStackSound_engineReset n

/-- Below a level on the claim stack there are no more levels than its rank (R169). -/
theorem length_le_handlingRank {x : Handling} {l : List Handling}
    (h : (x :: l).Pairwise fun a b => handlingRank b < handlingRank a) : l.length ≤ handlingRank x := by
  induction l generalizing x with
  | nil => exact Nat.zero_le _
  | cons y rest ih =>
    have hlt := List.rel_of_pairwise_cons h List.mem_cons_self
    exact (ih h.of_cons).trans_lt hlt

theorem handlingRank_le (x : Handling) : handlingRank x ≤ 4 := by
  cases x with
  | openLevel => exact Nat.zero_le 4
  | level l => exact l.isLt

/-! ### The flags of disabled sources -/

/-- Only the programmable sources can be disabled, so the invariant speaks of their flags, from position 2 on (R166). -/
theorem disabledFlagsClear_iff (n : NotifyUnit) :
    DisabledFlagsClear n ↔ ∀ k : Fin 11, n.settings[k] = .disabled → n.flags[k.val + 2] = false := by
  constructor
  · intro h k hd
    obtain ⟨src, hsrc, hi⟩ := exists_source_of_setting k
    have hd : n.settings[k.val] = .disabled := hd
    have := h src hsrc (by simp [sourceLevel, hi, hd])
    simpa [sourcePending, hi] using this
  · intro h src _ hnone
    unfold sourceLevel at hnone
    split at hnone
    case isTrue hi =>
      have hlt := (sourceIndex src).isLt
      have hd : n.settings[(sourceIndex src).val - 2] = .disabled := by
        split at hnone
        · assumption
        · cases hnone
      simpa [sourcePending, Nat.sub_add_cancel hi] using h ⟨(sourceIndex src).val - 2, by omega⟩ hd
    case isFalse => cases hnone

/-- A cause of a disabled source is not recorded (R167). -/
theorem disabledFlagsClear_cause {n : NotifyUnit} (h : DisabledFlagsClear n) (cause : Source) :
    DisabledFlagsClear (notifyCause cause n) := by
  intro src hsrc hnone
  rw [sourceLevel_notifyCause] at hnone
  have hother : (decide (sourceIndex cause = sourceIndex src) && (sourceLevel n cause).isSome) = false := by
    by_cases hi : sourceIndex cause = sourceIndex src
    · simp [sourceIndex_inj hi, hnone]
    · simp [hi]
  rw [sourcePending_notifyCause, h src hsrc hnone, hother]
  rfl

/-- A claim sets no flag. -/
theorem disabledFlagsClear_claim {n : NotifyUnit} (h : DisabledFlagsClear n) : DisabledFlagsClear (notifyClaim n) := by
  rcases notifyClaim_cases n with ⟨-, hkept, -⟩ | ⟨best, level, -, -, -, -, hclaim⟩
  · rwa [hkept]
  · rw [hclaim, disabledFlagsClear_iff]
    intro k hd
    have hclear := (disabledFlagsClear_iff n).mp h k hd
    simp [Vector.getElem_set, hclear]

/-- A setting of DISABLED clears its own source's flag, and no setting sets one (R167). -/
theorem disabledFlagsClear_level {n : NotifyUnit} (h : DisabledFlagsClear n) (k : Fin 11) (setting : NotifySetting) :
    DisabledFlagsClear (notifySetLevel k setting n) := by
  rw [disabledFlagsClear_iff] at h ⊢
  intro j hd
  have hstored : (if j ∈ [k] then setting else n.settings[j]) = .disabled :=
    (setLevels_settings (fun _ => setting) [k] n j).symm.trans hd
  refine Bool.eq_false_iff.mpr fun hset => ?_
  obtain ⟨hold, hkept⟩ := (setLevels_flags (fun _ => setting) [k] n ⟨j.val + 2, by omega⟩).mp hset
  split_ifs at hstored with hj
  · exact hkept j hj rfl hstored
  · exact Bool.eq_false_iff.mp (h j hstored) hold

theorem notifyChange_keeps_disabledFlagsClear {n m : NotifyUnit} (h : NotifyChange n m) (hn : DisabledFlagsClear n) :
    DisabledFlagsClear m := by
  cases h with
  | none => exact hn
  | cause src => exact disabledFlagsClear_cause hn src
  | faults f => exact hn
  | claim => exact disabledFlagsClear_claim hn
  | complete top rest hstack => exact hn
  | level k setting => exact disabledFlagsClear_level hn k setting
  | engineReset => exact (disabledFlagsClear_iff _).mpr fun k _ => by simp [notifyEngineReset]

/-- Settles O54: each invariant by what a command can do to the controller, and the bound by the ranks of the levels. -/
theorem notificationsStaySound : Obligations.NotificationsStaySound := by
  refine ⟨step_keeps_notify (fun _ _ => notifyChange_keeps_claimStackSound) (by decide),
    step_keeps_notify (fun _ _ => notifyChange_keeps_disabledFlagsClear) (by decide), fun n hn => ⟨?_, stack_eq_nil_iff hn⟩⟩
  exact (length_le_handlingRank hn.1).trans (handlingRank_le n.current)

end Sys2Proof.Notifications
end

section
/-!
PROOFS. The queue of commands waiting (O1, O3), the command word and its refusal at acceptance (O6, O8), and the window
writes that are a plain store or are discarded (O28).
-/
namespace Sys2Proof.HostWindow

open Sys2Proof.Machine Sys2Proof.Safety Sys2Proof.ActionTable Sys2Proof.Channels

/-! ### The queue of commands waiting -/

theorem step_of_cons {s : State} {c : Instr} {rest : List Instr} (h : s.pending = c :: rest) :
    step s = exec c { s with pending := rest } := by
  simp only [step, h]

/-- An empty queue idles (log 10). -/
theorem step_of_nil {s : State} (h : s.pending = []) : step s = .next s := by
  simp only [step, h]

/-- Settles O1, by whether a command waits. -/
theorem stepRunsTheFrontCommand : Obligations.StepRunsTheFrontCommand :=
  fun _ _ => ⟨step_of_cons rfl, step_of_nil⟩

theorem safeAsserted_pending (s : State) : (safeAsserted s).pending = s.pending := by
  unfold safeAsserted
  split
  · rfl
  · dsimp only; split <;> rfl

theorem safeReleased_pending (s : State) : (safeReleased s).pending = s.pending := by
  unfold safeReleased
  split
  · rfl
  · split <;> rfl

theorem move_pending {s t : State} (h : Move s t) : t.pending = s.pending := by
  cases h with
  | access ha => exact ha.pending_safe.1
  | safeAsserted => exact safeAsserted_pending s
  | safeReleased => exact safeReleased_pending s
  | released _ => rfl
  | engineReset => rfl

theorem moves_pending {s t : State} (h : Moves s t) : t.pending = s.pending := by
  induction h with
  | refl => rfl
  | tail _ hm ih => exact (move_pending hm).trans ih

/-- Settles O3: power-on reset keeps the queue by its own meaning, and every other command is a run of moves. -/
theorem commandsLeaveTheQueueAlone : Obligations.CommandsLeaveTheQueueAlone := by
  intro c s t h
  by_cases hc : ∃ ins safeN, c = .powerOnReset ins safeN
  · obtain ⟨ins, safeN, rfl⟩ := hc
    cases h
    rfl
  · exact moves_pending (exec_moves c s t (fun ins safeN e => hc ⟨ins, safeN, e⟩) h)

/-! ### Command words -/

theorem toNat_bits (c : CommandCode) : c.bits.toNat = commandNumber c := by cases c <;> rfl

/-- A code names only the command that has it (R199). -/
theorem bits_of_mem_ofBits : ∀ b : BitVec 4, ∀ c ∈ CommandCode.ofBits b, c.bits = b := by decide

/-- The places of the code and the argument in a command word (R199). -/
theorem toNat_commandWord (c : CommandCode) (a : Byte) : (commandWord c a).toNat = 256 * commandNumber c + a.toNat := by
  simp only [commandWord, toNat_append_eq, toNat_bits, BitVec.toNat_ofNat]
  omega

/-- A word that names a command has its upper bits 0 and the command's code (R187). -/
theorem fields_of_decodeCommand {w : Word} {c : CommandCode} (h : decodeCommand w = some c) :
    commandUpper w = 0#4 ∧ commandBits w = c.bits := by
  unfold decodeCommand at h
  split at h
  case isTrue hupper => exact ⟨hupper, (bits_of_mem_ofBits _ c h).symm⟩
  case isFalse => cases h

/-- A word is its three fields. -/
theorem fields_append (w : Word) : commandUpper w ++ commandBits w ++ commandArgument w = w := by
  apply BitVec.eq_of_toNat_eq
  simp only [toNat_append_eq, commandUpper, commandBits, commandArgument, toNat_extractLsb'_eq]
  omega

theorem commandWord_commandArgument {w : Word} {c : CommandCode} (h : decodeCommand w = some c) :
    commandWord c (commandArgument w) = w := by
  obtain ⟨hupper, hbits⟩ := fields_of_decodeCommand h
  calc commandWord c (commandArgument w)
      = commandUpper w ++ commandBits w ++ commandArgument w := by rw [hupper, hbits, commandWord]
    _ = w := fields_append w

theorem toNat_commandArgument (w : Word) : (commandArgument w).toNat = w.toNat % 256 := by simp [commandArgument]

/-- Settles O6: the word of a command reads back field by field, and a word that names one is that word. -/
theorem commandWordsReadBack : Obligations.CommandWordsReadBack :=
  ⟨fun c a => ⟨toNat_commandWord c a, decodeCommand_commandWord c a, commandArgument_commandWord c a, admits_iff c a⟩,
    fun _ _ => commandWord_commandArgument⟩

/-! ### Refusal at acceptance -/

/-- A refusal is a completion without work, after COMMAND has taken the word (R187, R188). -/
theorem refuseCommand_eq (status : CommandStatus) (w : Word) (s : State) :
    refuseCommand status w s =
      afterCompletion status (w.extractLsb' 8 4) (w.extractLsb' 0 8)
        { s with window := { s.window with command := w } } := completeCommand_eq _ _ _ _

theorem commandWrite_of_noCommand {w : Word} {s : State} (hidle : Idle s) (h : decodeCommand w = none) :
    commandWrite w s = refuseCommand .badCommand w s := by
  simp only [commandWrite, hidle, h]

theorem commandWrite_of_outOfRange {w : Word} {c : CommandCode} {s : State} (hidle : Idle s) (h : decodeCommand w = some c)
    (ha : ¬ argumentInRange c (commandArgument w).toNat) : commandWrite w s = refuseCommand .badField w s := by
  simp only [commandWrite, hidle, h, if_neg (mt (admits_iff c _).mp ha)]

/-- Settles O8: each row is a write to COMMAND, and the host command's row writes the same word. -/
theorem refusedWordCompletesAtTheWrite : Obligations.RefusedWordCompletesAtTheWrite := by
  intro w s hs hidle
  refine ⟨fun hnone => ?_, fun c hsome hrange => ⟨?_, ?_⟩⟩
  · rw [← refuseCommand_eq, ← commandWrite_of_noCommand hidle hnone]
    exact taken_of_settled hs
  · rw [← toNat_commandArgument] at hrange
    rw [← refuseCommand_eq, ← commandWrite_of_outOfRange hidle hsome hrange]
    exact taken_of_settled hs
  · have hword : commandWord c (w.extractLsb' 0 8) = w := commandWord_commandArgument hsome
    rw [exec_hostCommand, hword]
    rfl

/-! ### Window writes -/

/-- The registers that discard every write: ID, STATUS, COMMAND_RESULT, the values and snapshots of the timebases, the line
levels, the report words and NOTIFY_PENDING (R183, R184). -/
def discardingAddresses : List (BitVec 5) :=
  [0x00#5, 0x01#5, 0x03#5, 0x0E#5, 0x0F#5, 0x10#5, 0x11#5, 0x12#5, 0x13#5, 0x19#5, 0x1A#5, 0x1B#5, 0x1C#5, 0x1E#5]

theorem windowWrite_discarding {a : BitVec 5} (ha : a ∈ discardingAddresses) (w : Word) (s : State) :
    windowWrite a w s = s := by
  fin_cases ha <;> rfl

/-- Settles O28: the three plain stores by their addresses, and the registers that discard writes. -/
theorem windowWriteStoresOrIsDiscarded : Obligations.WindowWriteStoresOrIsDiscarded := by
  intro w s hs
  have hwrite : ∀ a, exec (.windowWrite a w) s = .next (windowWrite a w s) := fun a => taken_of_settled hs
  refine ⟨hwrite 0x14#5, hwrite 0x15#5, hwrite 0x16#5, fun a ha => ?_⟩
  rw [hwrite, windowWrite_discarding ha]

end Sys2Proof.HostWindow
end
